-- ==== Sys2Proof/Word.lean ====
section
/-! DEFINITION. The widths the block moves whole: the 32-bit command word (R70), the byte of a byte-wide
host link (R52), the 16-bit phase, increment, offset and threshold (R7). -/

namespace Sys2Proof

/-- A command or stimulus word, bit 31 the most significant (R8, R13, R70). -/
abbrev Word := BitVec 32

/-- One byte of a command word on a byte-wide host link (R52). -/
abbrev Byte := BitVec 8

/-- A phase, a phase increment, a follower offset or a fold threshold: 16 bits, unsigned (R7, R14). -/
abbrev Half := BitVec 16

end Sys2Proof
end

