-- ==== Sys2Proof/Machine/Oscillator.lean ====
section
/-! DEFINITION. The oscillator arithmetic of a TICK (42_oscillator.md): follower phase, parabolic sine, ring
modulator. -/

namespace Sys2Proof.Machine

/-- A sign-magnitude value: a 7-bit magnitude and a polarity bit, `true` for polarity 1, the negative half-cycle
(R144). -/
structure SignMag where
  mag : BitVec 7
  neg : Bool
deriving DecidableEq, Repr

/-- The signed value a pair stands for: `+mag` when the polarity is 0, `-mag` when it is 1 (R144). -/
def SignMag.value (x : SignMag) : Int := if x.neg then -(x.mag.toNat : Int) else x.mag.toNat

/-- `(LPHASE + inc) mod 2^16` (R140). -/
def leaderPhase (lphase inc : Half) : Half := BitVec.ofNat 16 (lphase.toNat + inc.toNat)

/-- One smoothing step of the follower offset toward the measured offset (R141). -/
def offsetToward (offcur offmeas : Half) : Half :=
  if offcur < offmeas then BitVec.ofNat 16 (offcur.toNat + 1)
  else if offcur > offmeas then BitVec.ofNat 16 (offcur.toNat - 1)
  else offcur

/-- `(LPHASE + ((LPHASE * OFFCUR) >> 8)) mod 2^16`: the shift applies to the product alone (R142, 90 C3). -/
def followerPhase (lphase offcur : Half) : Half :=
  BitVec.ofNat 16 (lphase.toNat + (lphase.toNat * offcur.toNat) >>> 8)

/-- The parabolic sine of a phase (R144): x is bits 14:7, the polarity is bit 15. -/
def psin (p : Half) : SignMag :=
  let x : BitVec 8 := p.extractLsb' 7 8
  { mag := BitVec.ofNat 7 ((x.toNat * (x ^^^ 0xFF#8).toNat) >>> 7), neg := p.getLsbD 15 }

/-- The ring modulator (R146): the product of the magnitudes rescaled by 7 bits, the polarities combined by
exclusive-or. -/
def ring (leader follower : SignMag) : SignMag :=
  { mag := BitVec.ofNat 7 ((leader.mag.toNat * follower.mag.toNat) >>> 7), neg := leader.neg ^^ follower.neg }

end Sys2Proof.Machine
end

