-- ==== Sys2Proof/Machine/Folder.lean ====
section
/-! DEFINITION. The asymmetric wave folder (43_wave_folder.md): the thresholds of a fold amount and the fold
function, step by step. -/

namespace Sys2Proof.Machine

/-- The positive threshold of a fold amount (R160). -/
def foldWrap (v : Nat) : Nat := min (64 + min v 1023 / 2) 511

/-- The negative threshold of a fold amount (R160). -/
def foldNegwrap (v : Nat) : Nat := max (foldWrap v / 2) 64

/-- The threshold selected by the polarity (R162). -/
def foldThreshold (wrap negwrap : Half) (neg : Bool) : Half := if neg then negwrap else wrap

/-- The scaled magnitude: a threshold of 64 is unity gain (R163). -/
def foldScale (m : Nat) (t : Half) : Nat := (m * t.toNat) >>> 6

/-- The polarity after the period reduction: inverted when the number of whole periods is odd (R164). -/
def foldPolarity (s : Nat) (neg : Bool) : Bool := neg ^^ (s / 256 % 2 == 1)

/-- The folded magnitude: the reduced value, reflected above the half-period (R164, R165). -/
def foldMagnitude (s : Nat) : Nat := if s % 256 < 128 then s % 256 else 255 - s % 256

/-- The unsigned sample of a folded magnitude and a final polarity, about the midpoint 128 (R166). -/
def foldOutput (f : Nat) (neg : Bool) : BitVec 8 := BitVec.ofNat 8 (if neg then 128 - f else 128 + f)

/-- The fold of a scaled value: period reduction, reflection, output assembly (R164 to R166). -/
def foldScaled (s : Nat) (neg : Bool) : BitVec 8 := foldOutput (foldMagnitude s) (foldPolarity s neg)

/-- `Fold(m, pol)` with the thresholds it reads (R167). -/
def fold (wrap negwrap : Half) (x : SignMag) : BitVec 8 :=
  foldScaled (foldScale x.mag.toNat (foldThreshold wrap negwrap x.neg)) x.neg

end Sys2Proof.Machine
end

