-- ==== Sys2Proof/Config.lean ====
section
/-! DEFINITION. What the document leaves to the implementation: the parameters of rule R6 (tick rate and the two
tables) and the one operator value no rule gives. -/

namespace Sys2Proof

/-- The parameters the model takes as arguments (R6): the tick rate `F_TICK_HZ` and the contents of `PITCH_TABLE`
(R36) and `MIDI_TABLE` (R37). A `MIDI_TABLE` entry is a 16-bit value whose bits 15:10 are zero (R54), so its ten
low bits are kept here and `MT` (Machine/Tables.lean) reads them zero-extended (DEDUCED, log entry 2). -/
structure Params where
  /-- `F_TICK_HZ`, ticks per second. -/
  tickHz : Nat
  /-- `PITCH_TABLE`, 1024 entries of 16 bits. -/
  pitchTable : Vector Half 1024
  /-- `MIDI_TABLE`, 61 entries, the ten low bits of each. -/
  midiTable : Vector (BitVec 10) 61
deriving DecidableEq, Repr

/-- The constraints of R6: the tick rate lies in 1..1 000 000, `PITCH_TABLE` is non-decreasing, `MIDI_TABLE` is
strictly increasing (its entries are at most 1023 by their width). A parameter set that breaks them "is not this
hardware" (93 I11). -/
abbrev Params.Legal (p : Params) : Prop :=
  (1 ≤ p.tickHz ∧ p.tickHz ≤ 1000000) ∧
  (∀ c : Fin 1023, p.pitchTable[c.val] ≤ p.pitchTable[c.val + 1]) ∧
  (∀ j : Fin 60, p.midiTable[j.val] < p.midiTable[j.val + 1])

/-- A parameter set this hardware can have. -/
abbrev LegalParams := { p : Params // p.Legal }

/-- A witness that the constraints of R6 can be met: it gives `Config.params` a type with an element, and nothing
else uses it. It is no table of the hardware. -/
def Config.someLegal : LegalParams :=
  ⟨{ tickHz := 1
     pitchTable := Vector.replicate 1024 0
     midiTable := Vector.ofFn (fun j => BitVec.ofNat 10 j) },
   ⟨by simp, by simp, by intro j; simp [BitVec.lt_def]; omega⟩⟩

/-- The free parameter set: uninterpreted, so that nothing is provable of it but that it is legal (R6; 91 N1, N3:
no source gives a table value, an endpoint or a tick rate; log entry 1). -/
opaque Config.free [Inhabited LegalParams] : LegalParams

/-- The parameters of the machine after power-on: some legal set, which one is open (R6, R221; log entry 1). -/
def Config.params : LegalParams := @Config.free ⟨Config.someLegal⟩

/-- The value of `tdiv(a, 0)`, which R15 does not define (it asks for `b > 0`): free. No state that meets R33
reaches it (log entry 8). -/
opaque Config.tdivByZero : Int → Int

end Sys2Proof
end

