-- ==== Sys2Proof/Machine/Operands.lean ====
section
/-! DEFINITION. The operators of the pseudocode (R15) and the table index a note operand gives (R101). The block has
no condition codes (R35), so there is no file of flag computations. -/

namespace Sys2Proof.Machine

/-- `clamp(x, lo, hi)` (R15). -/
def clamp (x lo hi : Nat) : Nat := min (max x lo) hi

/-- `ceil_div(a, b)` (R15). -/
def ceilDiv (a b : Nat) : Nat := (a + b - 1) / b

/-- `tdiv(a, b)`, signed division truncated toward zero, for `b > 0` (R15); the value at `b = 0` is free (log
entry 8). -/
def tdiv (a : Int) (b : Nat) : Int := if b = 0 then Config.tdivByZero a else a.tdiv b

/-- The `MIDI_TABLE` index of a note: the note clamped to 24..84, less 24 (R101). -/
def noteIndex (note : Nat) : Fin 61 := ⟨clamp note 24 84 - 24, by unfold clamp; omega⟩

end Sys2Proof.Machine
end

