-- ==== Sys2Proof/Machine/Tables.lean ====
section
/-! DEFINITION. The table read primitives (R51) and the two lookups (R100, R101): pure functions of the tables. -/

namespace Sys2Proof.Machine

/-- `PT[i]`, entry i of `PITCH_TABLE` (R51). -/
def PT (p : Params) (i : BitVec 10) : Half := p.pitchTable[i.toNat]

/-- `MT[j]`, entry j of `MIDI_TABLE`: 16 bits, of which bits 15:10 are zero (R51, R54). -/
def MT (p : Params) (j : Fin 61) : Half := p.midiTable[j.val].setWidth 16

/-- `lookupByCode(code)` (R100). -/
def lookupByCode (p : Params) (code : BitVec 10) : Half := PT p code

/-- `lookupByMidiNote(note)` (R101): the `MIDI_TABLE` entry of the clamped note, whose bits 15:10 are zero, is the
code. -/
def lookupByMidiNote (p : Params) (note : Nat) : Half := lookupByCode p ((MT p (noteIndex note)).setWidth 10)

end Sys2Proof.Machine
end

