-- ==== Sys2Proof/Machine/State.lean ====
section
/-! DEFINITION. The state of the block: the fourteen registers (R20 to R32, R42, R43), the read-only tables and the
tick rate (R6, R36, R37), and the port inputs still to come (model's own field, log entry 3); reset (R40). -/

namespace Sys2Proof.Machine

/-- The faults of a step: there are none. "RMDO-CORE raises no exception ... The cause-code table of this block is
empty" (R200), so the type has no constructor. -/
inductive Fault
deriving DecidableEq, Repr

/-- The refusals of a step. -/
inductive Refusal where
  /-- Raised only by an arm of `exec` for an instruction that has no meaning yet; no arm raises it, every row of the
  opcode table has its meaning. Safe: it would stop where the hardware goes on. -/
  | notModelled (mnemonic : String)
deriving DecidableEq, Repr

/-- The ramp mode (R30): 0 = Immediate, 1 = TimedLinear. -/
inductive RampMode where
  | immediate
  | timedLinear
deriving DecidableEq, Repr

/-- The 1-bit encoding of the ramp mode (R30). -/
def RampMode.bits : RampMode → BitVec 1
  | .immediate => 0
  | .timedLinear => 1

/-- The inputs of the block in one `clk` cycle (R8): reset, the tick strobe, and the command port. `cmdWord` is
looked at only when `cmdValid` is high. -/
structure PortCycle where
  rst : Bool
  tick : Bool
  cmdValid : Bool
  cmdWord : Word
deriving DecidableEq, Repr

/-- The state of the machine. -/
structure State where
  /-- `LPHASE`, the leader's phase (R21). -/
  lphase : Half
  /-- `FPHASE`, the follower's phase of the last completed tick (R22). -/
  fphase : Half
  /-- `OFFCUR`, the smoothed follower offset (R23). -/
  offcur : Half
  /-- `OFFMEAS`, the measured follower offset (R24). -/
  offmeas : Half
  /-- `WRAP`, the positive fold threshold (R25). -/
  wrap : Half
  /-- `NEGWRAP`, the negative fold threshold (R26). -/
  negwrap : Half
  /-- `RTARGET`, the ramp's target increment (R27). -/
  rtarget : Half
  /-- `RCURRENT`, the ramp's current increment (R28). -/
  rcurrent : Half
  /-- `RREMAIN`, the ticks still to be advanced (R29). -/
  rremain : BitVec 32
  /-- `RMODE`, the recorded ramp mode (R30). -/
  rmode : RampMode
  /-- `OUT`, the output sample (R31). -/
  out : BitVec 8
  /-- `RESULT`, the read-back register (R32). -/
  result : BitVec 32
  /-- `RSTART`, the start value of the present ramp (R42). -/
  rstart : Half
  /-- `RTOTAL`, the length of the present ramp in ticks (R43). -/
  rtotal : BitVec 32
  /-- The read-only tables (R36, R37) and the tick rate (R6): no step writes them. -/
  params : Params
  /-- The port inputs of the `clk` cycles to come, the earliest first; once it is empty no strobe and no command
  arrives. The model's own field (log entry 3), no register of the block. -/
  stimulus : List PortCycle
deriving DecidableEq, Repr

/-- The reset values of the fourteen registers (R40) over given parameters, with no input pending. -/
def State.resetWith (p : Params) : State :=
  { lphase := 0
    fphase := 0
    offcur := 0
    offmeas := 0
    wrap := 64
    negwrap := 64
    rtarget := lookupByMidiNote p 0
    rcurrent := lookupByMidiNote p 0
    rremain := 0
    rmode := .immediate
    out := 128
    result := 0
    rstart := lookupByMidiNote p 0
    rtotal := 0
    params := p
    stimulus := [] }

/-- The machine right after reset, which is also its state at power-on (R40, R221), over the open parameters of
R6. -/
def State.reset : State := State.resetWith Config.params.val

/-- The port `out_sample`, which drives `OUT` at all times (R8, R31). -/
def State.outSample (s : State) : BitVec 8 := s.out

/-- The port `result`, which drives `RESULT` at all times (R8, R32). -/
def State.resultPort (s : State) : BitVec 32 := s.result

end Sys2Proof.Machine
end

