-- ==== Sys2Proof/Machine/Ops.lean ====
section
/-! DEFINITION. The named operations over the registers: reset, read-back, the ramp primitives and the register
updates of a TICK. The block has no exception to take and none to return from (R200, R206). -/

namespace Sys2Proof.Machine

/-- A reset cycle (R220): every register takes its reset value; the tables and the inputs still to come stay. -/
def resetRegisters (s : State) : State := { State.resetWith s.params with stimulus := s.stimulus }

/-- Writing `RESULT`, the one register LKCODE, LKNOTE and RDREG write (R32, R55). -/
def writeResult (v : BitVec 32) (s : State) : State := { s with result := v }

/-- The value RDREG reads for a register number, zero-extended; 13..15 read as 0 (R38, R183). -/
def readRegister (s : State) (reg : BitVec 4) : BitVec 32 :=
  match reg.toNat with
  | 0 => s.lphase.setWidth 32
  | 1 => s.fphase.setWidth 32
  | 2 => s.offcur.setWidth 32
  | 3 => s.offmeas.setWidth 32
  | 4 => s.wrap.setWidth 32
  | 5 => s.negwrap.setWidth 32
  | 6 => s.rtarget.setWidth 32
  | 7 => s.rcurrent.setWidth 32
  | 8 => s.rremain
  | 9 => s.rmode.bits.setWidth 32
  | 10 => s.out.setWidth 32
  | 11 => s.rstart.setWidth 32
  | 12 => s.rtotal
  | _ => 0

/-- Writing `OFFMEAS` (R182). -/
def writeOffmeas (v : Half) (s : State) : State := { s with offmeas := v }

/-- Writing both fold thresholds in one step (R161). -/
def writeThresholds (wrap negwrap : Half) (s : State) : State := { s with wrap := wrap, negwrap := negwrap }

/-- `glideTicks(D)`: a duration in milliseconds as a number of ticks, rounded up (R121). -/
def glideTicks (tickHz D : Nat) : Nat := ceilDiv (D * tickHz) 1000

/-- `RampSetTarget(T, D, glide)` (R120). -/
def rampSetTarget (T : Half) (D : Nat) (glide : Bool) (s : State) : State :=
  if glide = false ∨ D = 0 then
    { s with rtarget := T, rcurrent := T, rstart := T, rtotal := 0, rremain := 0, rmode := .immediate }
  else
    { s with
      rtarget := T
      rstart := s.rcurrent
      rtotal := BitVec.ofNat 32 (glideTicks s.params.tickHz D)
      rremain := BitVec.ofNat 32 (glideTicks s.params.tickHz D)
      rmode := .timedLinear }

/-- The point of the ramp from S to T after k of N ticks: `S + tdiv((T - S) * k, N)` (R122). -/
def interpolate (S T : Half) (k : Int) (N : Nat) : Half :=
  BitVec.ofInt 16 ((S.toNat : Int) + tdiv (((T.toNat : Int) - S.toNat) * k) N)

/-- `RampAdvance()` (R122); the increment it returns is `RCURRENT` after it. -/
def rampAdvance (s : State) : State :=
  if s.rremain = 0 ∨ s.rcurrent = s.rtarget then { s with rremain := 0 }
  else
    { s with
      rremain := s.rremain - 1
      rcurrent :=
        interpolate s.rstart s.rtarget ((s.rtotal.toNat : Int) - (s.rremain - 1).toNat) s.rtotal.toNat }

/-- `LeaderStep(inc)` (R140). -/
def leaderStep (inc : Half) (s : State) : State := { s with lphase := leaderPhase s.lphase inc }

/-- `OffsetStep()` (R141). -/
def offsetStep (s : State) : State := { s with offcur := offsetToward s.offcur s.offmeas }

/-- `FollowerStep()` (R142). -/
def followerStep (s : State) : State := { s with fphase := followerPhase s.lphase s.offcur }

/-- `OUT <- Fold(ring(psin(LPHASE), psin(FPHASE)))`, the last four lines of R180. -/
def sampleStep (s : State) : State :=
  { s with out := fold s.wrap s.negwrap (ring (psin s.lphase) (psin s.fphase)) }

/-- The ramp advance and the leader step it feeds, the first two lines of R180. -/
def pitchStep (s : State) : State := leaderStep (rampAdvance s).rcurrent (rampAdvance s)

/-- `TICK()`, the steps of R180 in their order. -/
def tickStep (s : State) : State := sampleStep (followerStep (offsetStep (pitchStep s)))

end Sys2Proof.Machine
end

