-- ==== Sys2Proof/Machine/Control.lean ====
section
/-! DEFINITION. The control commands NOP, WROFF, WRFOLD and RDREG (R161, R182 to R184). -/

namespace Sys2Proof.Machine

/-- NOP (R184): every register as it was. -/
def execNop (s : State) : Host.Outcome State Fault Refusal := .next s

/-- WROFF (R182): the 16-bit operand unchanged into `OFFMEAS`. -/
def execWroff (v16 : Half) (s : State) : Host.Outcome State Fault Refusal := .next (writeOffmeas v16 s)

/-- WRFOLD (R161): both thresholds of the fold amount. -/
def execWrfold (v11 : BitVec 11) (s : State) : Host.Outcome State Fault Refusal :=
  .next (writeThresholds (BitVec.ofNat 16 (foldWrap v11.toNat)) (BitVec.ofNat 16 (foldNegwrap v11.toNat)) s)

/-- RDREG (R183): the named register, zero-extended, into `RESULT`. -/
def execRdreg (reg : BitVec 4) (s : State) : Host.Outcome State Fault Refusal :=
  .next (writeResult (readRegister s reg) s)

end Sys2Proof.Machine
end

