-- ==== Sys2Proof/Machine/Lookup.lean ====
section
/-! DEFINITION. The lookup commands LKCODE and LKNOTE (R104, R105). -/

namespace Sys2Proof.Machine

/-- LKCODE (R104). -/
def execLkcode (code : BitVec 10) (s : State) : Host.Outcome State Fault Refusal :=
  .next (writeResult ((lookupByCode s.params code).setWidth 32) s)

/-- LKNOTE (R105). -/
def execLknote (note : BitVec 7) (s : State) : Host.Outcome State Fault Refusal :=
  .next (writeResult ((lookupByMidiNote s.params note.toNat).setWidth 32) s)

end Sys2Proof.Machine
end

