-- ==== Sys2Proof/Machine/Portamento.lean ====
section
/-! DEFINITION. The four set-target commands (R124 to R127). -/

namespace Sys2Proof.Machine

/-- SETT.IMM (R124). -/
def execSettImm (target : Half) (s : State) : Host.Outcome State Fault Refusal :=
  .next (rampSetTarget target 0 false s)

/-- SETT.GLIDE (R125). -/
def execSettGlide (target : Half) (dur : BitVec 12) (s : State) : Host.Outcome State Fault Refusal :=
  .next (rampSetTarget target dur.toNat true s)

/-- SETN.IMM (R126). -/
def execSetnImm (note : BitVec 7) (s : State) : Host.Outcome State Fault Refusal :=
  .next (rampSetTarget (lookupByMidiNote s.params note.toNat) 0 false s)

/-- SETN.GLIDE (R127). -/
def execSetnGlide (note : BitVec 7) (dur : BitVec 12) (s : State) : Host.Outcome State Fault Refusal :=
  .next (rampSetTarget (lookupByMidiNote s.params note.toNat) dur.toNat true s)

end Sys2Proof.Machine
end

