-- ==== Sys2Proof/Machine/Tick.lean ====
section
/-! DEFINITION. The audio tick (R180). -/

namespace Sys2Proof.Machine

/-- TICK (R180): one output sample. -/
def execTick (s : State) : Host.Outcome State Fault Refusal := .next (tickStep s)

end Sys2Proof.Machine
end

