-- ==== Sys2Proof/Syntax.lean ====
section
/-! DEFINITION. The eleven operations of the opcode map (R80): ten commands and the stimulus TICK. Each operand has
the exact width of its field (R71 to R78), so an operand outside its field cannot be written; the check of source
operands against these widths is in WellFormed.lean. -/

namespace Sys2Proof

/-- One operation of the block: a command of R80, or the TICK that a strobe starts (R83, R180). -/
inductive Instr where
  /-- NOP, format N (R184). -/
  | nop
  /-- SETT.IMM, format V16: ramp target, Immediate (R124). -/
  | settImm (target : Half)
  /-- SETT.GLIDE, format DV: ramp target, duration in milliseconds (R125). -/
  | settGlide (target : Half) (dur : BitVec 12)
  /-- SETN.IMM, format N7: ramp target by note, Immediate (R126). -/
  | setnImm (note : BitVec 7)
  /-- SETN.GLIDE, format DN7: ramp target by note, duration in milliseconds (R127). -/
  | setnGlide (note : BitVec 7) (dur : BitVec 12)
  /-- WROFF, format V16: the measured follower offset (R182). -/
  | wroff (v16 : Half)
  /-- WRFOLD, format V11: the summed fold amount (R161). -/
  | wrfold (v11 : BitVec 11)
  /-- LKCODE, format C10: look up a code (R104). -/
  | lkcode (code : BitVec 10)
  /-- LKNOTE, format N7: look up a note (R105). -/
  | lknote (note : BitVec 7)
  /-- RDREG, format R4: read a register (R183). -/
  | rdreg (reg : BitVec 4)
  /-- TICK: one pulse of the tick strobe, a word in stimulus traces only (R83, R180). -/
  | tick
deriving DecidableEq, Repr

end Sys2Proof
end

