-- ==== Sys2Proof/Machine/Dispatch.lean ====
section
/-! DEFINITION. One arm per operation of the opcode map (R80, R83), each one call of its meaning. -/

namespace Sys2Proof.Machine

def exec (i : Instr) (s : State) : Host.Outcome State Fault Refusal :=
  match i with
  | .nop => Sys2Proof.Machine.execNop s
  | .settImm target => Sys2Proof.Machine.execSettImm target s
  | .settGlide target dur => Sys2Proof.Machine.execSettGlide target dur s
  | .setnImm note => Sys2Proof.Machine.execSetnImm note s
  | .setnGlide note dur => Sys2Proof.Machine.execSetnGlide note dur s
  | .wroff v16 => Sys2Proof.Machine.execWroff v16 s
  | .wrfold v11 => Sys2Proof.Machine.execWrfold v11 s
  | .lkcode code => Sys2Proof.Machine.execLkcode code s
  | .lknote note => Sys2Proof.Machine.execLknote note s
  | .rdreg reg => Sys2Proof.Machine.execRdreg reg s
  | .tick => Sys2Proof.Machine.execTick s

end Sys2Proof.Machine
end

