-- ==== Sys2Proof/Decode.lean ====
section
/-! DEFINITION. The command encoding (30_encoding.md): the opcode map, decoding a word on `cmd_word` and a word of a
stimulus trace, the encoder, and the byte order of a word on a byte-wide host link. -/

namespace Sys2Proof

/-- Why a word on `cmd_word` is an ignored word. -/
inductive IgnoreReason where
  /-- `op` is 0xA..0xF (R82). -/
  | reservedOpcode
  /-- `op` is 0x0..0x9 and a reserved bit of its format is 1 (R81). -/
  | reservedBits
deriving DecidableEq, Repr

/-- What a word decodes to: one operation, or an ignored word (R84). -/
inductive Decoded where
  | instr (i : Instr)
  | ignored (why : IgnoreReason)
deriving DecidableEq, Repr

/-- The operation of a decoded word, none for an ignored word. -/
def Decoded.toOption : Decoded → Option Instr
  | .instr i => some i
  | .ignored _ => none

/-- The field `op`, bits 31:28 (R70). -/
def opField (w : Word) : BitVec 4 := w.extractLsb' 28 4

/-- The field `dur`, bits 27:16 of formats DV and DN7 (R73, R75). -/
def durField (w : Word) : BitVec 12 := w.extractLsb' 16 12

/-- The field `v16`, bits 15:0 of formats V16 and DV (R72, R73). -/
def v16Field (w : Word) : Half := w.extractLsb' 0 16

/-- The field `v11`, bits 10:0 of format V11 (R76). -/
def v11Field (w : Word) : BitVec 11 := w.extractLsb' 0 11

/-- The field `code`, bits 9:0 of format C10 (R77). -/
def codeField (w : Word) : BitVec 10 := w.extractLsb' 0 10

/-- The field `note`, bits 6:0 of formats N7 and DN7 (R74, R75). -/
def noteField (w : Word) : BitVec 7 := w.extractLsb' 0 7

/-- The field `reg`, bits 3:0 of format R4 (R78). -/
def regField (w : Word) : BitVec 4 := w.extractLsb' 0 4

/-- One row of the opcode map (R80): its `op`, its match and mask, and the operation its operand fields give. -/
structure OpRow where
  op : BitVec 4
  pattern : Word
  mask : Word
  build : Word → Instr

/-- A word selects a row when `(word & mask) = match` (R81). -/
def OpRow.selects (r : OpRow) (w : Word) : Bool := w &&& r.mask == r.pattern

/-- The opcode map of R80, the rows a word on `cmd_word` can select. -/
def opcodeMap : List OpRow :=
  [ ⟨0x0, 0x00000000, 0xFFFFFFFF, fun _ => .nop⟩,
    ⟨0x1, 0x10000000, 0xFFFF0000, fun w => .settImm (v16Field w)⟩,
    ⟨0x2, 0x20000000, 0xF0000000, fun w => .settGlide (v16Field w) (durField w)⟩,
    ⟨0x3, 0x30000000, 0xFFFFFF80, fun w => .setnImm (noteField w)⟩,
    ⟨0x4, 0x40000000, 0xF000FF80, fun w => .setnGlide (noteField w) (durField w)⟩,
    ⟨0x5, 0x50000000, 0xFFFF0000, fun w => .wroff (v16Field w)⟩,
    ⟨0x6, 0x60000000, 0xFFFFF800, fun w => .wrfold (v11Field w)⟩,
    ⟨0x7, 0x70000000, 0xFFFFFC00, fun w => .lkcode (codeField w)⟩,
    ⟨0x8, 0x80000000, 0xFFFFFF80, fun w => .lknote (noteField w)⟩,
    ⟨0x9, 0x90000000, 0xFFFFFFF0, fun w => .rdreg (regField w)⟩ ]

/-- Decoding a word on `cmd_word` (R81, R82): the row of R80 for the word's `op`, and its match under its mask. -/
def decodeCommand (w : Word) : Decoded :=
  match opcodeMap.find? (fun r => r.op == opField w) with
  | none => .ignored .reservedOpcode
  | some r => if r.selects w then .instr (r.build w) else .ignored .reservedBits

/-- The stimulus word that stands for one pulse of the tick strobe (R83). -/
def tickWord : Word := 0xF0000000

/-- Decoding a word of a stimulus trace (R83): the tick word is a TICK, every other word is a word on `cmd_word`. -/
def decodeStimulus (w : Word) : Decoded :=
  if w = tickWord then .instr .tick else decodeCommand w

/-- The word of an operation, laid out field by field in its format (R71 to R78, R80); for TICK its stimulus word
(R83). -/
def encode : Instr → Word
  | .nop => 0x0#4 ++ 0#28
  | .settImm target => 0x1#4 ++ 0#12 ++ target
  | .settGlide target dur => 0x2#4 ++ dur ++ target
  | .setnImm note => 0x3#4 ++ 0#21 ++ note
  | .setnGlide note dur => 0x4#4 ++ dur ++ 0#9 ++ note
  | .wroff v16 => 0x5#4 ++ 0#12 ++ v16
  | .wrfold v11 => 0x6#4 ++ 0#17 ++ v11
  | .lkcode code => 0x7#4 ++ 0#18 ++ code
  | .lknote note => 0x8#4 ++ 0#21 ++ note
  | .rdreg reg => 0x9#4 ++ 0#24 ++ reg
  | .tick => 0xF#4 ++ 0#28

/-- The four bytes of a word on a byte-wide link, byte 0 (bits 7:0) first: little-endian (R52). -/
def wordBytes (w : Word) : List Byte :=
  [w.extractLsb' 0 8, w.extractLsb' 8 8, w.extractLsb' 16 8, w.extractLsb' 24 8]

/-- The word assembled from the bytes of a byte-wide link; there is one "only when all four bytes are assembled"
(R52). -/
def assembleWord : List Byte → Option Word
  | [b0, b1, b2, b3] => some (b3 ++ b2 ++ b1 ++ b0)
  | _ => none

/-- The words of a stream of bytes on a byte-wide link, four bytes a word, in their order; bytes of a word that is not
complete give none (R52). -/
def wordsOfBytes : List Byte → List Word
  | b0 :: b1 :: b2 :: b3 :: rest => (b3 ++ b2 ++ b1 ++ b0) :: wordsOfBytes rest
  | _ => []

/-- The operation the decoder reads from the bits `w` of an opcode-table row of `nbits` bits: the word, zero above
`nbits`, laid out in bytes (R52), assembled and decoded as a word of a stimulus trace (R83). -/
def decodeTableWord (nbits w : Nat) : Option Instr :=
  (assembleWord (wordBytes (BitVec.ofNat 32 (w % 2 ^ nbits)))).bind (fun v => (decodeStimulus v).toOption)

end Sys2Proof
end

