-- ==== Sys2Proof/Machine/Fetch.lean ====
section
/-! DEFINITION. What the ports present to the next step (R8, R57, R205, R225), and how a stimulus word appears on the
ports (R83). The block fetches no instructions (R61): its inputs take the place of a program. -/

namespace Sys2Proof.Machine

/-- What one step does. -/
inductive Event where
  /-- A cycle with no strobe and no command, or no cycle at all: no register changes (R210). -/
  | idle
  /-- A reset cycle (R220). -/
  | reset
  /-- A word on `cmd_word` that decodes to no operation (R81, R82). -/
  | ignored (why : IgnoreReason)
  /-- A command, or the TICK of a strobe. -/
  | run (i : Instr)
deriving DecidableEq, Repr

/-- The event of a word on `cmd_word` (R84). -/
def decodedEvent : Decoded → Event
  | .instr i => .run i
  | .ignored why => .ignored why

/-- The part of a cycle that is left once its command is accepted: its strobe, if it has one (R205, R225). -/
def afterCommand (c : PortCycle) (rest : List PortCycle) : List PortCycle :=
  if c.tick then { c with cmdValid := false } :: rest else rest

/-- The next event and the inputs left after it (R205): a reset cycle drops its command and strobe; otherwise the
command comes first, then the strobe. -/
def nextEvent : List PortCycle → Event × List PortCycle
  | [] => (.idle, [])
  | c :: rest =>
    if c.rst then (.reset, rest)
    else if c.cmdValid then (decodedEvent (decodeCommand c.cmdWord), afterCommand c rest)
    else if c.tick then (.run .tick, rest)
    else (.idle, rest)

/-- The event of the next step. -/
def State.event (s : State) : Event := (nextEvent s.stimulus).1

/-- The state with the inputs of the next step taken. -/
def takeInput (s : State) : State := { s with stimulus := (nextEvent s.stimulus).2 }

/-- A cycle with nothing but a strobe. -/
def tickCycle : PortCycle := { rst := false, tick := true, cmdValid := false, cmdWord := 0 }

/-- A cycle with nothing but a command word. -/
def commandCycle (w : Word) : PortCycle := { rst := false, tick := false, cmdValid := true, cmdWord := w }

/-- A stimulus word as a cycle of the ports (R83): the tick word is one pulse of the strobe, every other word stands
on `cmd_word` with `cmd_valid` high. -/
def stimulusCycle (w : Word) : PortCycle := if w = tickWord then tickCycle else commandCycle w

/-- The inputs of a stimulus trace: "no two steps share a cycle" (R83, 95 Conventions). -/
def stimulusTrace (ws : List Word) : List PortCycle := ws.map stimulusCycle

/-- The host presents one stimulus word ahead of every other input. -/
def presentWord (w : Word) (s : State) : State := { s with stimulus := stimulusCycle w :: s.stimulus }

end Sys2Proof.Machine
end

