-- ==== Sys2Proof/Machine/Step.lean ====
section
/-! DEFINITION. One indivisible step of the model (R57): a command, a TICK, an ignored word, a reset cycle or an idle
cycle. -/

namespace Sys2Proof.Machine

/-- One step: the next event of the ports, applied to the state with its input taken. -/
def step (s : State) : Host.Outcome State Fault Refusal :=
  match s.event with
  | .idle => .next (takeInput s)
  | .reset => .next (resetRegisters (takeInput s))
  | .ignored _ => .next (takeInput s)
  | .run i => exec i (takeInput s)

/-- `s` with the bits `w` of an opcode-table row (zero above `nbits`) as the stimulus word the next step takes; the
state is otherwise as it was (log entry 4). -/
def State.withFetchWord (s : State) (nbits w : Nat) : State := presentWord (BitVec.ofNat 32 (w % 2 ^ nbits)) s

end Sys2Proof.Machine
end

