-- ==== Sys2Proof/WellFormed.lean ====
section
/-! DEFINITION. Source statements of stimulus programs (R85, R86) with natural operands, and the check an assembler
makes of them: every operand fits its field (R85, 93 I14). -/

namespace Sys2Proof

/-- The register names an RDREG statement may use (R38, R85). -/
inductive RegName where
  | lphase | fphase | offcur | offmeas | wrap | negwrap | rtarget | rcurrent | rremain | rmode | out | rstart | rtotal
deriving DecidableEq, Repr

/-- The register number of each name (R38). -/
def RegName.number : RegName → Nat
  | .lphase => 0
  | .fphase => 1
  | .offcur => 2
  | .offmeas => 3
  | .wrap => 4
  | .negwrap => 5
  | .rtarget => 6
  | .rcurrent => 7
  | .rremain => 8
  | .rmode => 9
  | .out => 10
  | .rstart => 11
  | .rtotal => 12

/-- The operand of RDREG: "a number 0..15 or a register name" (R85). -/
inductive RegOperand where
  | num (n : Nat)
  | name (r : RegName)
deriving DecidableEq, Repr

/-- The number an RDREG operand stands for. -/
def RegOperand.number : RegOperand → Nat
  | .num n => n
  | .name r => r.number

/-- A source statement of a stimulus program: the twelve forms of R85, then the four pseudo-instructions of R86.
Operands stand in the statement's own order. -/
inductive Stmt where
  | nop
  | settImm (target : Nat)
  | settGlide (target dur : Nat)
  | setnImm (note : Nat)
  | setnGlide (note dur : Nat)
  | wroff (value : Nat)
  | wrfold (value : Nat)
  | lkcode (code : Nat)
  | lknote (note : Nat)
  | rdreg (reg : RegOperand)
  | tick
  /-- `.word w`: the 32-bit word as given, for ignored words. -/
  | word (w : Nat)
  /-- `TICKS n`: n copies of TICK. -/
  | ticks (n : Nat)
  /-- `SETT target, dur`: SETT.IMM when `dur = 0`, else SETT.GLIDE. -/
  | sett (target dur : Nat)
  /-- `SETN note, dur`: SETN.IMM when `dur = 0`, else SETN.GLIDE. -/
  | setn (note dur : Nat)
  /-- `FOLD knob, cv`: WRFOLD of the sum. -/
  | fold (knob cv : Nat)
deriving DecidableEq, Repr

/-- The operands of a statement fit their fields (R85): target and WROFF value at most 65535, dur at most 4095, note
at most 127, WRFOLD value at most 2047, code at most 1023, reg at most 15, `.word` at most 32 bits, the two
addends of FOLD at most 1023 each (R86). -/
def Stmt.wellFormed : Stmt → Bool
  | .nop | .tick | .ticks _ => true
  | .settImm target => target ≤ 65535
  | .settGlide target dur => target ≤ 65535 && dur ≤ 4095
  | .setnImm note => note ≤ 127
  | .setnGlide note dur => note ≤ 127 && dur ≤ 4095
  | .wroff value => value ≤ 65535
  | .wrfold value => value ≤ 2047
  | .lkcode code => code ≤ 1023
  | .lknote note => note ≤ 127
  | .rdreg reg => reg.number ≤ 15
  | .word w => w ≤ 0xFFFFFFFF
  | .sett target dur => target ≤ 65535 && dur ≤ 4095
  | .setn note dur => note ≤ 127 && dur ≤ 4095
  | .fold knob cv => knob ≤ 1023 && cv ≤ 1023

/-- The source statement of an operation, operands as naturals (R79, R85). -/
def Instr.toStmt : Instr → Stmt
  | .nop => .nop
  | .settImm target => .settImm target.toNat
  | .settGlide target dur => .settGlide target.toNat dur.toNat
  | .setnImm note => .setnImm note.toNat
  | .setnGlide note dur => .setnGlide note.toNat dur.toNat
  | .wroff v16 => .wroff v16.toNat
  | .wrfold v11 => .wrfold v11.toNat
  | .lkcode code => .lkcode code.toNat
  | .lknote note => .lknote note.toNat
  | .rdreg reg => .rdreg (.num reg.toNat)
  | .tick => .tick

/-- An operation is well-formed when its source statement is: every operand fits its field. The operand types make
it so for every `Instr` (Laws/PerInstr.lean proves it constructor by constructor). -/
def Instr.wellFormed (i : Instr) : Bool := i.toStmt.wellFormed

end Sys2Proof
end

