-- ==== Sys2Proof/Machine/Assembler.lean ====
section
/-! DEFINITION. The assembler of stimulus programs: the words of a source statement (R85), the expansion of the
pseudo-instructions (R86), and reading a statement from a line of text (R85). Text is a list of characters. -/

namespace Sys2Proof.Machine

/-- The word of `op * 2^28 + dur * 0x10000 + v` (R85). -/
def statementWord (op dur v : Nat) : Word := BitVec.ofNat 32 (op * 0x10000000 + dur * 0x10000 + v)

/-- The words of a statement whose operands fit their fields (R85, R86). -/
def expand : Stmt → List Word
  | .nop => [statementWord 0 0 0]
  | .settImm target => [statementWord 1 0 target]
  | .settGlide target dur => [statementWord 2 dur target]
  | .setnImm note => [statementWord 3 0 note]
  | .setnGlide note dur => [statementWord 4 dur note]
  | .wroff value => [statementWord 5 0 value]
  | .wrfold value => [statementWord 6 0 value]
  | .lkcode code => [statementWord 7 0 code]
  | .lknote note => [statementWord 8 0 note]
  | .rdreg reg => [statementWord 9 0 reg.number]
  | .tick => [tickWord]
  | .word w => [BitVec.ofNat 32 w]
  | .ticks n => List.replicate n tickWord
  | .sett target dur => [if dur = 0 then statementWord 1 0 target else statementWord 2 dur target]
  | .setn note dur => [if dur = 0 then statementWord 3 0 note else statementWord 4 dur note]
  | .fold knob cv => [statementWord 6 0 (knob + cv)]

/-- The words of a statement; a statement with an operand that does not fit its field is refused (R85, 93 I14). -/
def assemble (st : Stmt) : Option (List Word) := if st.wellFormed then some (expand st) else none

/-- The words of a program, refused when one of its statements is. -/
def assembleAll : List Stmt → Option (List Word)
  | [] => some []
  | st :: sts =>
    match assemble st, assembleAll sts with
    | some ws, some vs => some (ws ++ vs)
    | _, _ => none

/-- The value of a decimal digit. -/
def decDigit (c : Char) : Option Nat := if '0' ≤ c ∧ c ≤ '9' then some (c.toNat - 48) else none

/-- The value of a hexadecimal digit, in either case (log entry 9). -/
def hexDigit (c : Char) : Option Nat :=
  if '0' ≤ c ∧ c ≤ '9' then some (c.toNat - 48)
  else if 'a' ≤ c ∧ c ≤ 'f' then some (c.toNat - 87)
  else if 'A' ≤ c ∧ c ≤ 'F' then some (c.toNat - 55)
  else none

/-- The number of a list of digits after the value read so far. -/
def readDigits (digit : Char → Option Nat) (base acc : Nat) : List Char → Option Nat
  | [] => some acc
  | c :: cs =>
    match digit c with
    | some d => readDigits digit base (acc * base + d) cs
    | none => none

/-- A number: decimal, or hexadecimal with prefix `0x` (R85). -/
def readNumber : List Char → Option Nat
  | [] => none
  | '0' :: 'x' :: c :: cs => readDigits hexDigit 16 0 (c :: cs)
  | c :: cs => readDigits decDigit 10 0 (c :: cs)

/-- The register names as they are written (R38, R85). -/
def registerNames : List (List Char × RegName) :=
  [ (['L', 'P', 'H', 'A', 'S', 'E'], .lphase),
    (['F', 'P', 'H', 'A', 'S', 'E'], .fphase),
    (['O', 'F', 'F', 'C', 'U', 'R'], .offcur),
    (['O', 'F', 'F', 'M', 'E', 'A', 'S'], .offmeas),
    (['W', 'R', 'A', 'P'], .wrap),
    (['N', 'E', 'G', 'W', 'R', 'A', 'P'], .negwrap),
    (['R', 'T', 'A', 'R', 'G', 'E', 'T'], .rtarget),
    (['R', 'C', 'U', 'R', 'R', 'E', 'N', 'T'], .rcurrent),
    (['R', 'R', 'E', 'M', 'A', 'I', 'N'], .rremain),
    (['R', 'M', 'O', 'D', 'E'], .rmode),
    (['O', 'U', 'T'], .out),
    (['R', 'S', 'T', 'A', 'R', 'T'], .rstart),
    (['R', 'T', 'O', 'T', 'A', 'L'], .rtotal) ]

/-- The operand of RDREG as written: a register name or a number (R85). -/
def readRegOperand (cs : List Char) : Option RegOperand :=
  match registerNames.lookup cs with
  | some r => some (.name r)
  | none => (readNumber cs).map .num

/-- A statement with no operand. -/
def noOperand (st : Stmt) : List (List Char) → Option Stmt
  | [] => some st
  | _ => none

/-- A statement with one numeric operand. -/
def oneNumber (f : Nat → Stmt) : List (List Char) → Option Stmt
  | [a] => (readNumber a).map f
  | _ => none

/-- A statement with two numeric operands. -/
def twoNumbers (f : Nat → Nat → Stmt) : List (List Char) → Option Stmt
  | [a, b] =>
    match readNumber a, readNumber b with
    | some x, some y => some (f x y)
    | _, _ => none
  | _ => none

/-- A statement with one register operand. -/
def oneRegister (f : RegOperand → Stmt) : List (List Char) → Option Stmt
  | [a] => (readRegOperand a).map f
  | _ => none

/-- The mnemonics and pseudo-instructions with the operands each takes, in the statement's order (R85, R86). -/
def mnemonics : List (List Char × (List (List Char) → Option Stmt)) :=
  [ (['N', 'O', 'P'], noOperand .nop),
    (['S', 'E', 'T', 'T', '.', 'I', 'M', 'M'], oneNumber .settImm),
    (['S', 'E', 'T', 'T', '.', 'G', 'L', 'I', 'D', 'E'], twoNumbers .settGlide),
    (['S', 'E', 'T', 'N', '.', 'I', 'M', 'M'], oneNumber .setnImm),
    (['S', 'E', 'T', 'N', '.', 'G', 'L', 'I', 'D', 'E'], twoNumbers .setnGlide),
    (['W', 'R', 'O', 'F', 'F'], oneNumber .wroff),
    (['W', 'R', 'F', 'O', 'L', 'D'], oneNumber .wrfold),
    (['L', 'K', 'C', 'O', 'D', 'E'], oneNumber .lkcode),
    (['L', 'K', 'N', 'O', 'T', 'E'], oneNumber .lknote),
    (['R', 'D', 'R', 'E', 'G'], oneRegister .rdreg),
    (['T', 'I', 'C', 'K'], noOperand .tick),
    (['.', 'w', 'o', 'r', 'd'], oneNumber .word),
    (['T', 'I', 'C', 'K', 'S'], oneNumber .ticks),
    (['S', 'E', 'T', 'T'], twoNumbers .sett),
    (['S', 'E', 'T', 'N'], twoNumbers .setn),
    (['F', 'O', 'L', 'D'], twoNumbers .fold) ]

/-- A space or a tab: what separates the parts of a statement (log entry 9). -/
def isBlank (c : Char) : Bool := c == ' ' || c == '\t'

/-- The characters with no blank before the first and after the last. -/
def trim (cs : List Char) : List Char := ((cs.dropWhile isBlank).reverse.dropWhile isBlank).reverse

/-- The parts of a text between its commas. -/
def splitCommas : List Char → List (List Char)
  | [] => [[]]
  | c :: cs =>
    match splitCommas cs with
    | part :: parts => if c = ',' then [] :: part :: parts else (c :: part) :: parts
    | [] => [[]]

/-- The operands of a statement: none when nothing stands after the mnemonic, else the parts between commas. -/
def operandTexts (cs : List Char) : List (List Char) :=
  match trim cs with
  | [] => []
  | c :: rest => (splitCommas (c :: rest)).map trim

/-- The statements on one line (R85): none when only a comment or nothing stands there, one statement otherwise;
refused when the text is no statement. Text from `;` to the end of the line is a comment. -/
def readLine (line : List Char) : Option (List Stmt) :=
  match trim (line.takeWhile (· != ';')) with
  | [] => some []
  | c :: cs =>
    let text := c :: cs
    match mnemonics.lookup (text.takeWhile (fun c => !isBlank c)) with
    | some f => (f (operandTexts (text.dropWhile (fun c => !isBlank c)))).map (fun st => [st])
    | none => none

/-- The words of a line of source text, refused when the line is no statement or its operand does not fit (R85). -/
def assembleLine (line : List Char) : Option (List Word) := (readLine line).bind assembleAll

end Sys2Proof.Machine
end

