-- ==== Sys2Proof/Machine/Observe.lean ====
section
/-! DEFINITION. The observation of a run (R10, R11) and runs of operations. -/

namespace Sys2Proof.Machine

/-- One entry of the observation of a run (R11). -/
inductive Observation where
  /-- `OUT` after a TICK. -/
  | sample (v : BitVec 8)
  /-- `RESULT` after a LKCODE, LKNOTE or RDREG. -/
  | result (v : BitVec 32)
deriving DecidableEq, Repr

/-- What the host reads back after an operation that leaves the state `t` (R10, R11). -/
def observeInstr (i : Instr) (t : State) : List Observation :=
  match i with
  | .tick => [.sample t.outSample]
  | .lkcode _ => [.result t.resultPort]
  | .lknote _ => [.result t.resultPort]
  | .rdreg _ => [.result t.resultPort]
  | .nop => []
  | .settImm _ => []
  | .settGlide _ _ => []
  | .setnImm _ => []
  | .setnGlide _ _ => []
  | .wroff _ => []
  | .wrfold _ => []

/-- What the host reads back after an event that leaves the state `t`. -/
def observeEvent (e : Event) (t : State) : List Observation :=
  match e with
  | .run i => observeInstr i t
  | .idle => []
  | .reset => []
  | .ignored _ => []

/-- The observation of the first `n` steps of the run from `s` (R11, R12). -/
def observations : Nat → State → List Observation
  | 0, _ => []
  | n + 1, s =>
    match step s with
    | .next t => observeEvent s.event t ++ observations n t
    | .fault _ => []
    | .refused _ => []

/-- The value an observation holds when it is a sample, none when it is a result. -/
def Observation.sampleValue : Observation → Option (BitVec 8)
  | .sample v => some v
  | .result _ => none

/-- The samples of the first `n` steps: the `OUT` values alone, one per TICK (R11). -/
def samples (n : Nat) (s : State) : List (BitVec 8) := (observations n s).filterMap Observation.sampleValue

/-- A list of operations performed in order, one after the other, with no other step between them (R59). -/
def execAll : List Instr → State → Host.Outcome State Fault Refusal
  | [], s => .next s
  | i :: is, s =>
    match exec i s with
    | .next t => execAll is t
    | .fault r => .fault r
    | .refused r => .refused r

end Sys2Proof.Machine
end

