-- ==== Sys2Proof/Safety.lean ====
section
/-! DEFINITION. What holds of every state a run reaches: the threshold and ramp invariants (R33, R34), the follower
law (R22, R142) and the range of the output (R31, R168). -/

namespace Sys2Proof.Machine

/-- The threshold invariant (R34): `WRAP` in 64..511, `NEGWRAP` in 64..255, and `NEGWRAP = max(WRAP div 2, 64)`. -/
structure State.ThresholdsOk (s : State) : Prop where
  wrap_range : 64 ≤ s.wrap.toNat ∧ s.wrap.toNat ≤ 511
  negwrap_range : 64 ≤ s.negwrap.toNat ∧ s.negwrap.toNat ≤ 255
  negwrap_eq : s.negwrap.toNat = max (s.wrap.toNat / 2) 64

/-- The ramp invariant: R33, and what R120, R122 and R128 make of it. -/
structure State.RampOk (s : State) : Prop where
  /-- "whenever `RREMAIN = 0`, `RCURRENT = RTARGET`" (R33). -/
  idle_at_target : s.rremain = 0 → s.rcurrent = s.rtarget
  /-- "`RREMAIN <= RTOTAL`" (R33). -/
  remain_le_total : s.rremain.toNat ≤ s.rtotal.toNat
  /-- `RTOTAL` is "0 when the last set-target was Immediate" and at least 1 otherwise (R43, R121). -/
  total_zero_iff : s.rtotal = 0 ↔ s.rmode = .immediate
  /-- An Immediate set-target leaves the start at the target (R120). -/
  start_at_target : s.rtotal = 0 → s.rstart = s.rtarget
  /-- `RCURRENT` lies on the truncated line from `RSTART` to `RTARGET` (R122, R128), unless the ramp has ended. -/
  on_line : s.rtotal ≠ 0 → s.rremain ≠ 0 →
    (s.rcurrent.toNat : Int) = s.rstart.toNat +
      (((s.rtarget.toNat : Int) - s.rstart.toNat) * ((s.rtotal.toNat : Int) - s.rremain.toNat)).tdiv s.rtotal.toNat

/-- The invariant of the block. -/
structure State.Inv (s : State) : Prop where
  /-- The parameters are ones this hardware can have (R6, 93 I11). -/
  params_legal : s.params.Legal
  thresholds : s.ThresholdsOk
  ramp : s.RampOk
  /-- `FPHASE` is the follower phase of `LPHASE` and `OFFCUR` (R22, R143(a)). -/
  follower : s.fphase.toNat = (s.lphase.toNat * (256 + s.offcur.toNat) / 256) % 65536
  /-- The sample is in 1..255 (R168(b)). -/
  sample_range : 1 ≤ s.out.toNat

/-- The four set-target commands (R27), which begin a new ramp. -/
def isSetTarget : Instr → Bool
  | .settImm _ => true
  | .settGlide _ _ => true
  | .setnImm _ => true
  | .setnGlide _ _ => true
  | .nop => false
  | .wroff _ => false
  | .wrfold _ => false
  | .lkcode _ => false
  | .lknote _ => false
  | .rdreg _ => false
  | .tick => false

/-- The set-target commands that begin a ramp of one tick or more and keep `RCURRENT` (R120): the glide forms with a
duration other than 0. -/
def isGlide : Instr → Bool
  | .settGlide _ dur => dur != 0
  | .setnGlide _ dur => dur != 0
  | .nop => false
  | .settImm _ => false
  | .setnImm _ => false
  | .wroff _ => false
  | .wrfold _ => false
  | .lkcode _ => false
  | .lknote _ => false
  | .rdreg _ => false
  | .tick => false

/-- The commands whose `RESULT` the host reads back: LKCODE, LKNOTE and RDREG (R11, R32). -/
def isReading : Instr → Bool
  | .lkcode _ => true
  | .lknote _ => true
  | .rdreg _ => true
  | .nop => false
  | .settImm _ => false
  | .settGlide _ _ => false
  | .setnImm _ => false
  | .setnGlide _ _ => false
  | .wroff _ => false
  | .wrfold _ => false
  | .tick => false

/-- A safe outcome: the step completes (R200). -/
abbrev Completes (o : Host.Outcome State Fault Refusal) : Prop := ∃ t, o = .next t

end Sys2Proof.Machine
end

