-- ==== Sys2Proof/Certificates/Slice0/Obligations.lean ====
section
/-! DEFINITION. The statements for the provers.

A docstring names the rules of spec/ its statement formalises. Where a rule is an inference the spec marks as its own
(derived), or the statement speaks of a field or form that is the model's own choice (the list of inputs to come, log
entry 3; the word presented ahead of them, log entry 4; the two steps of one cycle, log entry 5), it says so. -/

open Sys2Proof Sys2Proof.Machine

/-! ### Encoding -/

/-- Decoding the word of an operation gives the operation back, for every operation with every operand value: as a
word of a stimulus trace, and on `cmd_word` for the ten commands (R80, R83). -/
def Obligations.DecodeInvertsEncode : Prop :=
  ∀ i : Instr, decodeStimulus (encode i) = .instr i ∧ (i ≠ .tick → decodeCommand (encode i) = .instr i)

/-- A word of a stimulus trace that decodes to an operation is the word of that operation: no two words mean the same
operation with the same operands (R80, R83). -/
def Obligations.EncodeInvertsDecode : Prop :=
  ∀ (w : Word) (i : Instr), decodeStimulus w = .instr i → encode i = w

/-- R84 (the spec marks it as derived from R80 to R82): every word on `cmd_word` selects exactly one row of the opcode
map and decodes to that row's operation, never to a TICK, or it selects none and is an ignored word. -/
def Obligations.DecodingIsTotalAndUnambiguous : Prop :=
  opcodeMap.length = 10 ∧ ∀ w : Word,
    (∃ r ∈ opcodeMap, r.selects w = true ∧ decodeCommand w = .instr (r.build w) ∧ r.build w ≠ .tick ∧
      ∀ q ∈ opcodeMap, q.selects w = true → q.op = r.op) ∨
    ((∀ r ∈ opcodeMap, r.selects w = false) ∧ ∃ why, decodeCommand w = .ignored why)

/-- The rows of R80 as words: a word that agrees with a row's match under its mask decodes to the row's operation with
the operand fields of its format (R71 to R78). -/
def Obligations.EachRowDecodesItsFields : Prop :=
  ∀ w : Word,
    (w &&& 0xFFFFFFFF = 0x00000000 → decodeCommand w = .instr .nop) ∧
    (w &&& 0xFFFF0000 = 0x10000000 → decodeCommand w = .instr (.settImm (w.extractLsb' 0 16))) ∧
    (w &&& 0xF0000000 = 0x20000000 →
      decodeCommand w = .instr (.settGlide (w.extractLsb' 0 16) (w.extractLsb' 16 12))) ∧
    (w &&& 0xFFFFFF80 = 0x30000000 → decodeCommand w = .instr (.setnImm (w.extractLsb' 0 7))) ∧
    (w &&& 0xF000FF80 = 0x40000000 →
      decodeCommand w = .instr (.setnGlide (w.extractLsb' 0 7) (w.extractLsb' 16 12))) ∧
    (w &&& 0xFFFF0000 = 0x50000000 → decodeCommand w = .instr (.wroff (w.extractLsb' 0 16))) ∧
    (w &&& 0xFFFFF800 = 0x60000000 → decodeCommand w = .instr (.wrfold (w.extractLsb' 0 11))) ∧
    (w &&& 0xFFFFFC00 = 0x70000000 → decodeCommand w = .instr (.lkcode (w.extractLsb' 0 10))) ∧
    (w &&& 0xFFFFFF80 = 0x80000000 → decodeCommand w = .instr (.lknote (w.extractLsb' 0 7))) ∧
    (w &&& 0xFFFFFFF0 = 0x90000000 → decodeCommand w = .instr (.rdreg (w.extractLsb' 0 4)))

/-- Words written out from the formats of R71 to R78 decode to the operation they stand for. -/
def Obligations.SpelledWordsDecode : Prop :=
  decodeCommand 0b0001_000000000000_0000001111101000 = .instr (.settImm 1000) ∧
  decodeCommand 0b0010_000000000100_0000011111010000 = .instr (.settGlide 2000 4) ∧
  decodeCommand 0b0100_000011001000_000000000_1001000 = .instr (.setnGlide 72 200) ∧
  decodeCommand 0b0110_00000000000000000_11111111111 = .instr (.wrfold 2047) ∧
  decodeCommand 0b0111_000000000000000000_1111111111 = .instr (.lkcode 1023) ∧
  decodeCommand 0b1001_000000000000000000000000_1010 = .instr (.rdreg 10) ∧
  decodeStimulus 0b1111_0000000000000000000000000000 = .instr .tick

/-- The word of each operation as the number R85 gives for its statement. -/
def Obligations.EncodeIsTheStatementWord : Prop :=
  (encode .nop).toNat = 0x00000000 ∧
  (∀ target, (encode (.settImm target)).toNat = 0x10000000 + target.toNat) ∧
  (∀ target dur, (encode (.settGlide target dur)).toNat = 0x20000000 + dur.toNat * 0x10000 + target.toNat) ∧
  (∀ note, (encode (.setnImm note)).toNat = 0x30000000 + note.toNat) ∧
  (∀ note dur, (encode (.setnGlide note dur)).toNat = 0x40000000 + dur.toNat * 0x10000 + note.toNat) ∧
  (∀ value, (encode (.wroff value)).toNat = 0x50000000 + value.toNat) ∧
  (∀ value, (encode (.wrfold value)).toNat = 0x60000000 + value.toNat) ∧
  (∀ code, (encode (.lkcode code)).toNat = 0x70000000 + code.toNat) ∧
  (∀ note, (encode (.lknote note)).toNat = 0x80000000 + note.toNat) ∧
  (∀ reg, (encode (.rdreg reg)).toNat = 0x90000000 + reg.toNat) ∧
  (encode .tick).toNat = 0xF0000000

/-- R82: a word on `cmd_word` with `op` in 0xA..0xF is an ignored word whatever its other bits; the step that accepts
it changes no register. (That the accepted word leaves the list of inputs to come is the model's, log entry 3, and that
a strobe of its cycle stays for the step after it is log entry 5.) -/
def Obligations.ReservedOpcodeIsIgnored : Prop :=
  ∀ (s : State) (c : PortCycle) (rest : List PortCycle),
    s.stimulus = c :: rest → c.rst = false → c.cmdValid = true → 0xA0000000 ≤ c.cmdWord.toNat →
    decodeCommand c.cmdWord = .ignored .reservedOpcode ∧
    step s = .next { s with stimulus := if c.tick then { c with cmdValid := false } :: rest else rest }

/-- R81: a word with `op` in 0x0..0x9 and a reserved bit of its format set is an ignored word; the step that accepts it
changes no register, `RESULT` included. The masks here are the reserved bits of each format (R71 to R78). (That the
accepted word leaves the list of inputs to come is the model's, log entry 3, and that a strobe of its cycle stays for the
step after it is log entry 5.) -/
def Obligations.ReservedBitIsIgnored : Prop :=
  ∀ (s : State) (c : PortCycle) (rest : List PortCycle) (op : Nat) (reserved : Word),
    (op, reserved) ∈ ([(0, 0x0FFFFFFF), (1, 0x0FFF0000), (2, 0), (3, 0x0FFFFF80), (4, 0x0000FF80), (5, 0x0FFF0000),
      (6, 0x0FFFF800), (7, 0x0FFFFC00), (8, 0x0FFFFF80), (9, 0x0FFFFFF0)] : List (Nat × Word)) →
    s.stimulus = c :: rest → c.rst = false → c.cmdValid = true →
    c.cmdWord.toNat / 0x10000000 = op → c.cmdWord &&& reserved ≠ 0 →
    decodeCommand c.cmdWord = .ignored .reservedBits ∧
    step s = .next { s with stimulus := if c.tick then { c with cmdValid := false } :: rest else rest }

/-- R83: in a stimulus trace `0xF0000000` is one pulse of the strobe and every other word is that word on `cmd_word`
with `cmd_valid` high; on `cmd_word` itself `0xF0000000` is an ignored word, and no word there is a TICK. -/
def Obligations.StimulusWordsReachThePorts : Prop :=
  (∀ w : Word, (w = 0xF0000000 →
      stimulusCycle w = { rst := false, tick := true, cmdValid := false, cmdWord := 0 } ∧
      decodeStimulus w = .instr .tick ∧ decodeCommand w = .ignored .reservedOpcode) ∧
    (w ≠ 0xF0000000 →
      stimulusCycle w = { rst := false, tick := false, cmdValid := true, cmdWord := w } ∧
      decodeStimulus w = decodeCommand w)) ∧
  ∀ w : Word, decodeCommand w ≠ .instr .tick

/-- The byte order of R52: byte k of a word is its bits 8k+7..8k, the four bytes assemble to the word, and nothing but
the four bytes of a word assembles to it; a stream of bytes gives its words in order, and no word for the bytes of one
that is not complete. -/
def Obligations.WordBytesAreLittleEndian : Prop :=
  (∀ w : Word, (wordBytes w).map BitVec.toNat =
      [w.toNat % 256, w.toNat / 256 % 256, w.toNat / 65536 % 256, w.toNat / 16777216]) ∧
  (∀ (bs : List Byte) (w : Word), assembleWord bs = some w ↔ bs = wordBytes w) ∧
  ∀ (ws : List Word) (part : List Byte), part.length < 4 → wordsOfBytes (ws.flatMap wordBytes ++ part) = ws

/-- The assembler (R85, 93 I14) gives the word of the operation for the statement of every operation and for RDREG of a
register name, and the word itself for `.word`, and refuses every statement with an operand that does not fit its field,
the pseudo-statements of R86 among them (that a `.word` above 32 bits is refused is the model's choice, log entry 9). -/
def Obligations.AssemblerAgreesWithEncode : Prop :=
  (∀ i : Instr, assemble i.toStmt = some [encode i]) ∧
  (∀ target, assemble (.settImm target) = none ↔ 65535 < target) ∧
  (∀ target dur, assemble (.settGlide target dur) = none ↔ 65535 < target ∨ 4095 < dur) ∧
  (∀ note, assemble (.setnImm note) = none ↔ 127 < note) ∧
  (∀ note dur, assemble (.setnGlide note dur) = none ↔ 127 < note ∨ 4095 < dur) ∧
  (∀ value, assemble (.wroff value) = none ↔ 65535 < value) ∧
  (∀ value, assemble (.wrfold value) = none ↔ 2047 < value) ∧
  (∀ code, assemble (.lkcode code) = none ↔ 1023 < code) ∧
  (∀ note, assemble (.lknote note) = none ↔ 127 < note) ∧
  (∀ n, assemble (.rdreg (.num n)) = none ↔ 15 < n) ∧
  (∀ r : RegName, assemble (.rdreg (.name r)) = some [encode (.rdreg (BitVec.ofNat 4 r.number))]) ∧
  (∀ w : Word, assemble (.word w.toNat) = some [w]) ∧ (∀ w, assemble (.word w) = none ↔ 0xFFFFFFFF < w) ∧
  (∀ target dur, assemble (.sett target dur) = none ↔ 65535 < target ∨ 4095 < dur) ∧
  (∀ note dur, assemble (.setn note dur) = none ↔ 127 < note ∨ 4095 < dur) ∧
  ∀ knob cv, assemble (.fold knob cv) = none ↔ 1023 < knob ∨ 1023 < cv

/-- The pseudo-instructions of R86: `SETT` and `SETN` give the word of the Immediate form at duration 0 and of the
glide form otherwise, both expansions of a zero duration give the same state, `FOLD` is WRFOLD of the sum, `TICKS n` is
n tick words. -/
def Obligations.PseudoInstructionsExpand : Prop :=
  (∀ (target : Half) (dur : BitVec 12), assemble (.sett target.toNat dur.toNat) =
    some [encode (if dur = 0 then .settImm target else .settGlide target dur)]) ∧
  (∀ (note : BitVec 7) (dur : BitVec 12), assemble (.setn note.toNat dur.toNat) =
    some [encode (if dur = 0 then .setnImm note else .setnGlide note dur)]) ∧
  (∀ (target : Half) (s : State), exec (.settGlide target 0) s = exec (.settImm target) s) ∧
  (∀ (note : BitVec 7) (s : State), exec (.setnGlide note 0) s = exec (.setnImm note) s) ∧
  (∀ knob cv : BitVec 10, assemble (.fold knob.toNat cv.toNat) =
    some [encode (.wrfold (knob.setWidth 11 + cv.setWidth 11))]) ∧
  ∀ n, assemble (.ticks n) = some (List.replicate n (encode .tick))

/-! ### Steps -/

/-- A step runs the decoded command: in a cycle with `rst` low that presents a word which decodes to `i`, the step is
`exec i`, with the command taken from the inputs and the cycle's strobe, if any, left to the step after it (R57, R205,
R225; the list of inputs and the two steps of one cycle are the model's, log entries 3 and 5). -/
def Obligations.StepRunsTheDecodedCommand : Prop :=
  ∀ (s : State) (c : PortCycle) (rest : List PortCycle) (i : Instr),
    s.stimulus = c :: rest → c.rst = false → c.cmdValid = true → decodeCommand c.cmdWord = .instr i →
    step s = exec i { s with stimulus := if c.tick then { c with cmdValid := false } :: rest else rest }

/-- A strobe with `rst` low and no command in its cycle starts exactly one TICK (R180, R204). (That the step takes the
cycle off a list of inputs to come is the model's, log entry 3.) -/
def Obligations.StepRunsTheStrobedTick : Prop :=
  ∀ (s : State) (c : PortCycle) (rest : List PortCycle),
    s.stimulus = c :: rest → c.rst = false → c.cmdValid = false → c.tick = true →
    step s = exec .tick { s with stimulus := rest }

/-- The next step after a stimulus word is presented runs the word's operation, at any state and whatever inputs wait
(R83; that the presented word stands ahead of them is the model's, log entry 4). -/
def Obligations.PresentedWordRunsNext : Prop :=
  ∀ (i : Instr) (s : State), step (s.withFetchWord 32 (encode i).toNat) = exec i s

/-- A stimulus trace runs its operations, in order, one step each, and nothing else (R59, R83; the list of inputs to
come is the model's, log entry 3). -/
def Obligations.StimulusTraceRunsItsOperations : Prop :=
  ∀ (is : List Instr) (s : State) (rest : List PortCycle),
    s.stimulus = stimulusTrace (is.map encode) ++ rest →
    Sys2Proof.core.run is.length s = execAll is { s with stimulus := rest }

/-- A command and a strobe in one cycle: the command first, then the TICK on the state it left (R205, R225; that these
are two steps of the model is log entry 5, the list of inputs to come log entry 3). -/
def Obligations.CommandComesBeforeTheStrobe : Prop :=
  ∀ (s : State) (c : PortCycle) (rest : List PortCycle) (i : Instr),
    s.stimulus = c :: rest → c.rst = false → c.cmdValid = true → c.tick = true →
    decodeCommand c.cmdWord = .instr i →
    Sys2Proof.core.run 2 s = execAll [i, .tick] { s with stimulus := rest }

/-- "A `tick` held high for `n` cycles starts `n` TICKs" (R226), here with no command in those cycles. (The list of
inputs to come that holds the cycles is the model's, log entry 3.) -/
def Obligations.HeldStrobeStartsOneTickPerCycle : Prop :=
  ∀ (n : Nat) (s : State) (c : PortCycle) (rest : List PortCycle),
    c.rst = false → c.cmdValid = false → c.tick = true → s.stimulus = List.replicate n c ++ rest →
    Sys2Proof.core.run n s = execAll (List.replicate n .tick) { s with stimulus := rest }

/-- R220: for as long as `rst` is high, from any state, every register takes its reset value, the commands and strobes
of those cycles are dropped, `out_sample` shows 128 and `result` shows 0; a command or a strobe of the first cycle with
`rst` low runs on that state. (That the inputs after the reset stay in the list of inputs to come is the model's, log
entry 3, and that a strobe beside a command is left to a second step is log entry 5.) -/
def Obligations.ResetCyclesRestoreEveryRegister : Prop :=
  ∀ (cs rest : List PortCycle) (s : State), cs ≠ [] → (∀ c ∈ cs, c.rst = true) → s.stimulus = cs ++ rest →
    ∃ t, Sys2Proof.core.run cs.length s = .next t ∧
      t = { State.resetWith s.params with stimulus := rest } ∧ t.outSample = 128 ∧ t.resultPort = 0 ∧
      (∀ (d : PortCycle) (ds : List PortCycle) (i : Instr), rest = d :: ds → d.rst = false → d.cmdValid = true →
        decodeCommand d.cmdWord = .instr i →
        step t = exec i { State.resetWith s.params with
                          stimulus := if d.tick then { d with cmdValid := false } :: ds else ds }) ∧
      (∀ (d : PortCycle) (ds : List PortCycle), rest = d :: ds → d.rst = false → d.cmdValid = false → d.tick = true →
        step t = exec .tick { State.resetWith s.params with stimulus := ds })

/-- R40: the value every register holds in a reset state, whatever the parameters, and that `State.reset` is the reset
state of parameters that R6 allows. -/
def Obligations.ResetValuesAreTheTable : Prop :=
  (∀ p : Params, (State.resetWith p).lphase = 0 ∧ (State.resetWith p).fphase = 0 ∧ (State.resetWith p).offcur = 0 ∧
    (State.resetWith p).offmeas = 0 ∧ (State.resetWith p).wrap = 64 ∧ (State.resetWith p).negwrap = 64 ∧
    (State.resetWith p).rtarget = p.pitchTable[(p.midiTable[0]).toNat] ∧
    (State.resetWith p).rcurrent = p.pitchTable[(p.midiTable[0]).toNat] ∧ (State.resetWith p).rremain = 0 ∧
    (State.resetWith p).rstart = p.pitchTable[(p.midiTable[0]).toNat] ∧ (State.resetWith p).rtotal = 0 ∧
    (State.resetWith p).rmode = .immediate ∧ (State.resetWith p).out = 128 ∧ (State.resetWith p).result = 0 ∧
    (State.resetWith p).params = p) ∧
  State.reset = State.resetWith State.reset.params ∧ State.reset.params.Legal

/-- "When no strobe and no command arrive, no register changes" (R210): in an idle cycle, and once the list of inputs to
come, the model's own field (log entry 3), is empty. -/
def Obligations.IdleCycleChangesNothing : Prop :=
  (∀ s : State, s.stimulus = [] → step s = .next s) ∧
  ∀ (s : State) (c : PortCycle) (rest : List PortCycle),
    s.stimulus = c :: rest → c.rst = false → c.cmdValid = false → c.tick = false →
    step s = .next { s with stimulus := rest }

/-- R200: there is no fault; every operation completes for every operand value and in every state, and so does every
step. -/
def Obligations.EveryOperationCompletes : Prop :=
  IsEmpty Fault ∧ (∀ (i : Instr) (s : State), Completes (exec i s)) ∧ ∀ s : State, Completes (step s)

/-! ### What each command does -/

/-- R184: NOP is the word 0, it changes nothing, and a word with `op` 0 and any other bit set is an ignored word. -/
def Obligations.NopChangesNothing : Prop :=
  decodeCommand 0x00000000 = .instr .nop ∧ (∀ s : State, exec .nop s = .next s) ∧
  ∀ w : Word, w.toNat < 0x10000000 → w ≠ 0 → decodeCommand w = .ignored .reservedBits

/-- SETT.IMM (R124): the six ramp registers take the Immediate values, nothing else changes. -/
def Obligations.SettImmSnapsToItsTarget : Prop :=
  ∀ (target : Half) (s : State), exec (.settImm target) s =
    .next { s with rtarget := target, rcurrent := target, rstart := target, rtotal := 0, rremain := 0,
                   rmode := .immediate }

/-- SETT.GLIDE (R125): at duration 0 as SETT.IMM; otherwise a ramp from the present `RCURRENT`, which stays, over the
least whole number of ticks that is at least `dur * F_TICK_HZ / 1000`, and nothing else changes. -/
def Obligations.SettGlideStartsARamp : Prop :=
  ∀ (target : Half) (dur : BitVec 12) (s : State),
    (dur = 0 → exec (.settGlide target dur) s =
      .next { s with rtarget := target, rcurrent := target, rstart := target, rtotal := 0, rremain := 0,
                     rmode := .immediate }) ∧
    (dur ≠ 0 → ∃ n : BitVec 32, exec (.settGlide target dur) s =
        .next { s with rtarget := target, rstart := s.rcurrent, rtotal := n, rremain := n, rmode := .timedLinear } ∧
      (s.params.Legal → dur.toNat * s.params.tickHz ≤ 1000 * n.toNat ∧
        1000 * n.toNat < dur.toNat * s.params.tickHz + 1000))

/-- SETN.IMM (R126): as SETT.IMM with the increment of the note. -/
def Obligations.SetnImmSnapsToItsNote : Prop :=
  ∀ (note : BitVec 7) (s : State), exec (.setnImm note) s =
    .next { s with rtarget := lookupByMidiNote s.params note.toNat
                   rcurrent := lookupByMidiNote s.params note.toNat
                   rstart := lookupByMidiNote s.params note.toNat
                   rtotal := 0, rremain := 0, rmode := .immediate }

/-- SETN.GLIDE (R127): as SETT.GLIDE with the increment of the note. -/
def Obligations.SetnGlideStartsARamp : Prop :=
  ∀ (note : BitVec 7) (dur : BitVec 12) (s : State),
    (dur = 0 → exec (.setnGlide note dur) s =
      .next { s with rtarget := lookupByMidiNote s.params note.toNat
                     rcurrent := lookupByMidiNote s.params note.toNat
                     rstart := lookupByMidiNote s.params note.toNat
                     rtotal := 0, rremain := 0, rmode := .immediate }) ∧
    (dur ≠ 0 → ∃ n : BitVec 32, exec (.setnGlide note dur) s =
        .next { s with rtarget := lookupByMidiNote s.params note.toNat
                       rstart := s.rcurrent, rtotal := n, rremain := n, rmode := .timedLinear } ∧
      (s.params.Legal → dur.toNat * s.params.tickHz ≤ 1000 * n.toNat ∧
        1000 * n.toNat < dur.toNat * s.params.tickHz + 1000))

/-- WROFF (R182): the operand unchanged into `OFFMEAS`, nothing else changes; `OFFCUR` stays until the next TICK. -/
def Obligations.WroffWritesTheMeasuredOffset : Prop :=
  ∀ (v : Half) (s : State), exec (.wroff v) s = .next { s with offmeas := v }

/-- WRFOLD (R160, R161): both thresholds from the clamped fold amount, nothing else changes. -/
def Obligations.WrfoldSetsBothThresholds : Prop :=
  ∀ (v : BitVec 11) (s : State), ∃ w n : Half, exec (.wrfold v) s = .next { s with wrap := w, negwrap := n } ∧
    w.toNat = min (64 + min v.toNat 1023 / 2) 511 ∧ n.toNat = max (w.toNat / 2) 64

/-- The values R160 draws from its formulas (marked derived there): where the thresholds leave 64 and reach 511, and
the clamp at 1023. -/
def Obligations.FoldThresholdValues : Prop :=
  (∀ v, 64 ≤ foldWrap v ∧ foldWrap v ≤ 511 ∧ 64 ≤ foldNegwrap v ∧ foldNegwrap v ≤ 255) ∧
  (∀ v, foldWrap v = 64 ↔ v ≤ 1) ∧ (foldWrap 128 = 128 ∧ foldNegwrap 128 = 64) ∧
  (∀ v, foldWrap v = 511 ↔ 894 ≤ v) ∧ (∀ v, 894 ≤ v → foldNegwrap v = 255) ∧
  (∀ v, foldNegwrap v = 64 ↔ v ≤ 131) ∧ (foldWrap 132 = 130 ∧ foldNegwrap 132 = 65) ∧
  ∀ v, 1023 ≤ v → foldWrap v = foldWrap 1023 ∧ foldNegwrap v = foldNegwrap 1023

/-- R100 and R101: a code reads its `PITCH_TABLE` entry; a note is clamped to 24..84 and reads the `PITCH_TABLE` entry
its `MIDI_TABLE` entry names. -/
def Obligations.LookupsReadTheTables : Prop :=
  ∀ p : Params,
    (∀ (c : Nat) (h : c < 1024), lookupByCode p (BitVec.ofNat 10 c) = p.pitchTable[c]) ∧
    (∀ (j : Nat) (h : j < 61), lookupByMidiNote p (24 + j) = p.pitchTable[(p.midiTable[j]).toNat]) ∧
    (∀ note, note ≤ 24 → lookupByMidiNote p note = p.pitchTable[(p.midiTable[0]).toNat]) ∧
    (∀ note, 84 ≤ note → lookupByMidiNote p note = p.pitchTable[(p.midiTable[60]).toNat])

/-- The laws of the lookups for every legal table (R103, marked derived there): codes and notes are monotone, notes
outside 24..84 read as the clamped note. -/
def Obligations.LookupsAreMonotone : Prop :=
  ∀ p : Params, p.Legal →
    (∀ c d : BitVec 10, c ≤ d → lookupByCode p c ≤ lookupByCode p d) ∧
    (∀ a b : Nat, a ≤ b → lookupByMidiNote p a ≤ lookupByMidiNote p b) ∧
    ∀ n : Nat, lookupByMidiNote p n = lookupByMidiNote p (min (max n 24) 84)

/-- LKCODE (R104) and LKNOTE (R105): the table entry of the code, or the increment of the note, zero-extended, into
`RESULT`; nothing else changes. -/
def Obligations.LookupCommandsWriteTheResult : Prop :=
  (∀ (code : BitVec 10) (s : State), ∃ v : BitVec 32, exec (.lkcode code) s = .next { s with result := v } ∧
    v.toNat = (s.params.pitchTable[code.toNat]).toNat) ∧
  ∀ (note : BitVec 7) (s : State), ∃ v : BitVec 32, exec (.lknote note) s = .next { s with result := v } ∧
    v.toNat = (lookupByMidiNote s.params note.toNat).toNat

/-- RDREG (R38, R183): the register of the number, zero-extended, into `RESULT`, numbers 13..15 as 0; nothing else
changes. -/
def Obligations.RdregReadsTheRegister : Prop :=
  ∀ (reg : BitVec 4) (s : State), ∃ v : BitVec 32, exec (.rdreg reg) s = .next { s with result := v } ∧
    [s.lphase.toNat, s.fphase.toNat, s.offcur.toNat, s.offmeas.toNat, s.wrap.toNat, s.negwrap.toNat, s.rtarget.toNat,
      s.rcurrent.toNat, s.rremain.toNat, if s.rmode = .timedLinear then 1 else 0, s.out.toNat, s.rstart.toNat,
      s.rtotal.toNat, 0, 0, 0][reg.toNat]? = some v.toNat

/-! ### What a TICK does -/

/-- R140 to R142: in every state a TICK completes; the leader adds the increment the ramp advance leaves in
`RCURRENT`, modulo 65536; the offset moves one unit toward the measured offset; the follower is recomputed from the new
leader and the stepped offset. -/
def Obligations.TickMovesThePhases : Prop :=
  ∀ s : State, ∃ t, exec .tick s = .next t ∧
    t.lphase.toNat = (s.lphase.toNat + t.rcurrent.toNat) % 65536 ∧
    (s.offcur.toNat < s.offmeas.toNat → t.offcur.toNat = s.offcur.toNat + 1) ∧
    (s.offmeas.toNat < s.offcur.toNat → t.offcur.toNat + 1 = s.offcur.toNat) ∧
    (s.offcur = s.offmeas → t.offcur = s.offcur) ∧
    t.fphase.toNat = (t.lphase.toNat + t.lphase.toNat * t.offcur.toNat / 256) % 65536

/-- R122: in a state that meets the invariants of 10_state.md, a TICK moves an active ramp to the truncated point of
its line after one more tick, which lies between start and target and is the target when `RREMAIN` reaches 0, and
leaves a ramp that has reached its target where it is, with `RREMAIN` 0. -/
def Obligations.TickAdvancesTheRamp : Prop :=
  ∀ s : State, s.Inv → ∃ t, exec .tick s = .next t ∧
    ((s.rremain = 0 ∨ s.rcurrent = s.rtarget) → t.rremain = 0 ∧ t.rcurrent = s.rcurrent) ∧
    (s.rremain ≠ 0 → s.rcurrent ≠ s.rtarget →
      t.rremain.toNat + 1 = s.rremain.toNat ∧
      (t.rcurrent.toNat : Int) = s.rstart.toNat +
        (((s.rtarget.toNat : Int) - s.rstart.toNat) * ((s.rtotal.toNat : Int) - t.rremain.toNat)).tdiv s.rtotal.toNat ∧
      min s.rstart.toNat s.rtarget.toNat ≤ t.rcurrent.toNat ∧
      t.rcurrent.toNat ≤ max s.rstart.toNat s.rtarget.toNat ∧
      (t.rremain = 0 → t.rcurrent = s.rtarget))

/-- The whole of a TICK beyond the ramp (R180): in every state it completes, `OUT` is the fold of the ring of the two
sines, computed here in naturals from R144, R146 and R167, and nothing but `RCURRENT`, `RREMAIN`, `LPHASE`, `OFFCUR`,
`FPHASE` and `OUT` changes. -/
def Obligations.TickProducesTheSample : Prop :=
  ∀ s : State, ∃ t, exec .tick s = .next t ∧
    t = { s with rcurrent := t.rcurrent, rremain := t.rremain, lphase := t.lphase, offcur := t.offcur,
                 fphase := t.fphase, out := t.out } ∧
    (let mag := fun p : Nat => p / 128 % 256 * (255 - p / 128 % 256) / 128
     let pol := (t.lphase.toNat / 32768 + t.fphase.toNat / 32768) % 2
     let m := mag t.lphase.toNat * mag t.fphase.toNat / 128
     let sc := m * (if pol = 0 then s.wrap.toNat else s.negwrap.toNat) / 64
     let f := if sc % 256 < 128 then sc % 256 else 255 - sc % 256
     t.out.toNat = if (pol + sc / 256) % 2 = 0 then 128 + f else 128 - f)

/-- R144: the magnitude and polarity of the parabolic sine from bits 14:7 and bit 15 of the phase; bits 6:0 do not
affect it. -/
def Obligations.ParabolicSineFormula : Prop :=
  ∀ p : Half, (psin p).mag.toNat = p.toNat / 128 % 256 * (255 - p.toNat / 128 % 256) / 128 ∧
    ((psin p).neg = true ↔ 32768 ≤ p.toNat) ∧
    ((psin p).value = if p.toNat < 32768 then ((psin p).mag.toNat : Int) else -((psin p).mag.toNat : Int)) ∧
    ∀ q : Half, q.toNat / 128 = p.toNat / 128 → psin q = psin p

/-- The laws of the sine (R145, marked derived there): where it is zero, where it peaks, its symmetry within a
half-cycle, the other half, and that it rises to the middle of a half-cycle and falls after it. -/
def Obligations.ParabolicSineLaws : Prop :=
  (∀ p : Half, (psin p).mag = 0 ↔
    p.toNat ≤ 0x007F ∨ (0x7F80 ≤ p.toNat ∧ p.toNat ≤ 0x807F) ∨ 0xFF80 ≤ p.toNat) ∧
  (∀ p : Half, (psin p).mag = 127 ↔
    (0x3F80 ≤ p.toNat ∧ p.toNat ≤ 0x407F) ∨ (0xBF80 ≤ p.toNat ∧ p.toNat ≤ 0xC07F)) ∧
  (∀ p : Half, (psin (p ^^^ 0x7F80)).mag = (psin p).mag) ∧
  (∀ p : Half, (psin (p ^^^ 0x8000)).mag = (psin p).mag ∧ (psin (p ^^^ 0x8000)).neg = !(psin p).neg) ∧
  (∀ p q : Half, p.toNat / 32768 = q.toNat / 32768 → p.toNat % 32768 ≤ q.toNat % 32768 →
    (q.toNat % 32768 < 0x4000 → (psin p).mag.toNat ≤ (psin q).mag.toNat) ∧
    (0x4000 ≤ p.toNat % 32768 → (psin q).mag.toNat ≤ (psin p).mag.toNat))

/-- The ring modulator (R146) and its laws (marked derived there): magnitudes multiplied and rescaled, at most 126, 0
when either is 0; polarities combined; equal inputs never give polarity 1. -/
def Obligations.RingModulatorLaws : Prop :=
  ∀ a b : SignMag, (ring a b).mag.toNat = a.mag.toNat * b.mag.toNat / 128 ∧ (ring a b).neg = (a.neg != b.neg) ∧
    (ring a b).mag.toNat ≤ 126 ∧ (a.mag = 0 ∨ b.mag = 0 → (ring a b).mag = 0) ∧ (ring a a).neg = false

/-- The laws of the fold (R168, marked derived there): zero to the midpoint, range 1..255, an already folded value
unchanged, symmetry under a polarity flip, continuity in the scaled value. -/
def Obligations.WaveFolderLaws : Prop :=
  (∀ (w n : Half) (neg : Bool), fold w n ⟨0, neg⟩ = 128) ∧
  (∀ (w n : Half) (x : SignMag), 1 ≤ (fold w n x).toNat) ∧
  (∀ (sc : Nat) (neg : Bool), sc ≤ 127 → foldMagnitude sc = sc ∧ foldPolarity sc neg = neg) ∧
  (∀ sc : Nat, foldMagnitude (foldMagnitude sc) = foldMagnitude sc) ∧
  (∀ (t : Half) (m : BitVec 7), (fold t t ⟨m, true⟩).toNat + (fold t t ⟨m, false⟩).toNat = 256) ∧
  ∀ (sc : Nat) (neg : Bool), (foldScaled (sc + 1) neg).toNat ≤ (foldScaled sc neg).toNat + 1 ∧
    (foldScaled sc neg).toNat ≤ (foldScaled (sc + 1) neg).toNat + 1

/-- At the minimum fold nothing folds (R163, marked derived there): with both thresholds 64 the sample of a TICK is
128 plus the signed ring value of the two new phases. -/
def Obligations.MinimumFoldFoldsNothing : Prop :=
  ∀ s : State, s.wrap = 64 → s.negwrap = 64 → ∃ t, exec .tick s = .next t ∧
    (t.out.toNat : Int) = 128 + (ring (psin t.lphase) (psin t.fphase)).value

/-- The last corner case of R180 on unison, "so `OUT` is never below 128", follows from R164 to R167 up to `WRAP` 130,
where every scaled value stays below 256, but not at every larger threshold: a state with `OFFCUR = OFFMEAS = 0` and the
thresholds 511 and 255 of WRFOLD 1023 has a TICK whose sample is below 128 (log entry 7: the model follows the
pseudocode). -/
def Obligations.UnisonAndTheMidpoint : Prop :=
  (∀ s : State, s.offcur = 0 → s.offmeas = 0 → s.wrap.toNat ≤ 130 →
    ∃ t, exec .tick s = .next t ∧ t.fphase = t.lphase ∧ 128 ≤ t.out.toNat) ∧
  ∃ s t : State, s.Inv ∧ s.offcur = 0 ∧ s.offmeas = 0 ∧ s.wrap = 511 ∧ s.negwrap = 255 ∧
    exec .tick s = .next t ∧ t.fphase = t.lphase ∧ t.out.toNat < 128

/-- The hard-sync and ratio laws (R143, marked derived there), of the follower phase a TICK computes. -/
def Obligations.FollowerRatioLaws : Prop :=
  (∀ l o : Half, (followerPhase l o).toNat = l.toNat * (256 + o.toNat) / 256 % 65536) ∧
  (∀ l : Half, followerPhase l 0 = l) ∧
  (∀ l : Half, (followerPhase l 256).toNat = 2 * l.toNat % 65536) ∧
  (∀ o : Half, followerPhase 0 o = 0) ∧
  ∀ s : State, ∃ t, exec .tick s = .next t ∧ t.fphase = followerPhase t.lphase t.offcur

/-! ### The ramp over many steps -/

/-- R121: the tick count of a duration is the least whole number of ticks that is at least `D * F_TICK_HZ / 1000`; for
the durations and rates the block has it lies in 1..4 095 000 and fits `RREMAIN` (the range is marked derived there). -/
def Obligations.GlideTicksBounds : Prop :=
  ∀ hz D : Nat, 1 ≤ hz → hz ≤ 1000000 → 1 ≤ D → D ≤ 4095 →
    (∀ n, glideTicks hz D ≤ n ↔ D * hz ≤ 1000 * n) ∧ 1 ≤ glideTicks hz D ∧ glideTicks hz D ≤ 4095000 ∧
    (BitVec.ofNat 32 (glideTicks hz D)).toNat = glideTicks hz D

/-- Convergence (R123, marked derived there): after a glide to `T` begins, with any other operations but no set-target
between, `RCURRENT` is `T` once `glideTicks(D)` TICKs or more have run, and a further advance returns `T`. -/
def Obligations.RampConverges : Prop :=
  ∀ (s : State) (T : Half) (D : Nat) (is : List Instr), s.params.Legal → 1 ≤ D → D ≤ 4095 →
    (∀ i ∈ is, isSetTarget i = false) → glideTicks s.params.tickHz D ≤ is.count .tick →
    ∃ t, execAll is (rampSetTarget T D true s) = .next t ∧ t.rcurrent = T ∧ (rampAdvance t).rcurrent = T

/-- Linearity (R128, marked derived there): during a glide of `N` ticks from `S` to `T`, with other operations but no
set-target between, `RCURRENT` after `k` TICKs is `S + tdiv((T - S) * k, N)`, differs from the ideal line by less than
1, moves monotonically and never passes `T`, and equals `T` only at `k = N` when `S` is not `T`. -/
def Obligations.RampIsLinear : Prop :=
  ∀ (s : State) (T : Half) (D : Nat) (is js : List Instr), s.params.Legal → 1 ≤ D → D ≤ 4095 →
    (∀ i ∈ is ++ js, isSetTarget i = false) →
    is.count .tick + js.count .tick ≤ glideTicks s.params.tickHz D →
    ∃ t u, execAll is (rampSetTarget T D true s) = .next t ∧ execAll js t = .next u ∧
      (let N : Int := glideTicks s.params.tickHz D
       let k : Int := is.count .tick
       let S : Int := s.rcurrent.toNat
       let d : Int := T.toNat - S
       (t.rcurrent.toNat : Int) = S + (d * k).tdiv N ∧
       |N * ((t.rcurrent.toNat : Int) - S) - d * k| < N ∧
       (s.rcurrent ≤ T → s.rcurrent ≤ t.rcurrent ∧ t.rcurrent ≤ u.rcurrent ∧ u.rcurrent ≤ T) ∧
       (T ≤ s.rcurrent → T ≤ u.rcurrent ∧ u.rcurrent ≤ t.rcurrent ∧ t.rcurrent ≤ s.rcurrent) ∧
       (s.rcurrent ≠ T → (t.rcurrent = T ↔ k = N)))

/-- Continuity under re-targeting (R129, marked derived there): a glide command, of a target or of a note, leaves
`RCURRENT`, and the increment of the next TICK differs from it by at most one step of the new ramp, the N-th part of the
distance to the target. -/
def Obligations.RetargetingIsContinuous : Prop :=
  (∀ (s : State) (T : Half) (dur : BitVec 12), s.params.Legal → dur ≠ 0 →
    ∃ t u, exec (.settGlide T dur) s = .next t ∧ t.rcurrent = s.rcurrent ∧ exec .tick t = .next u ∧
      |(u.rcurrent.toNat : Int) - s.rcurrent.toNat| * t.rtotal.toNat ≤ |(T.toNat : Int) - s.rcurrent.toNat|) ∧
  ∀ (s : State) (note : BitVec 7) (dur : BitVec 12), s.params.Legal → dur ≠ 0 →
    ∃ t u, exec (.setnGlide note dur) s = .next t ∧ t.rcurrent = s.rcurrent ∧ exec .tick t = .next u ∧
      |(u.rcurrent.toNat : Int) - s.rcurrent.toNat| * t.rtotal.toNat ≤
        |((lookupByMidiNote s.params note.toNat).toNat : Int) - s.rcurrent.toNat|

/-- The phase-wrap law (R147, marked derived there): with the ramp idle at `inc`, `n` TICKs for which `n * inc` is a
multiple of 65536 leave `LPHASE` at the value it had. -/
def Obligations.PhaseWrapsToItsStart : Prop :=
  ∀ (n : Nat) (s : State), s.rremain = 0 → 65536 ∣ n * s.rcurrent.toNat →
    ∃ t, execAll (List.replicate n .tick) s = .next t ∧ t.lphase = s.lphase ∧ t.rcurrent = s.rcurrent

/-- The smoothing bound (R141, marked derived there): a TICK brings `OFFCUR` nearer to `OFFMEAS` by exactly 1 while they
differ, and never past it. -/
def Obligations.OffsetSmoothingBound : Prop :=
  ∀ s : State, ∃ t, exec .tick s = .next t ∧ t.offmeas = s.offmeas ∧
    |(t.offcur.toNat : Int) - t.offmeas.toNat| = max (|(s.offcur.toNat : Int) - s.offmeas.toNat| - 1) 0 ∧
    0 ≤ ((t.offcur.toNat : Int) - t.offmeas.toNat) * ((s.offcur.toNat : Int) - s.offmeas.toNat)

/-- R227(b) (marked derived there): whatever operations but WROFF run, `OFFCUR` moves one unit per TICK toward `OFFMEAS`
and stays there once it has reached it. -/
def Obligations.OffsetReachesTheMeasuredValue : Prop :=
  ∀ (is : List Instr) (s : State), (∀ i ∈ is, ∀ v, i ≠ .wroff v) →
    ∃ t, execAll is s = .next t ∧ t.offmeas = s.offmeas ∧
      t.offcur.toNat = if s.offcur ≤ s.offmeas then min (s.offcur.toNat + is.count .tick) s.offmeas.toNat
        else max (s.offcur.toNat - is.count .tick) s.offmeas.toNat

/-! ### Whole-machine rules -/

/-- Every step keeps the invariant: the legal parameters, the threshold invariant (R34), the ramp invariant (R33, R43,
R128), the follower law (R22, R143(a)) and the sample range (R168(b)), from every state that meets it, whatever the
inputs (that the parameters and the inputs to come stand in the state is log entries 3 and 6). -/
def Obligations.EveryStepKeepsTheInvariant : Prop :=
  ∀ s t : State, s.Inv → step s = .next t → t.Inv

/-- The invariant holds at reset (R33, R34, R40, R224), for the machine's own open parameters and for every legal
parameter set. -/
def Obligations.InvariantHoldsAtReset : Prop :=
  State.reset.Inv ∧ ∀ p : Params, p.Legal → (State.resetWith p).Inv

/-- "Tables are immutable, loaded once" (R36, R61): no step changes the tables, nor the tick rate, which stands beside
them in the state by the model's choice (log entry 6; R36 and R61 speak of the tables only). -/
def Obligations.ParametersNeverChange : Prop :=
  ∀ (n : Nat) (s t : State), Sys2Proof.core.run n s = .next t → t.params = s.params

/-- R39: single-writer ownership. A TICK keeps every register of the command agent; a command keeps every register of
the tick agent; `RCURRENT` and `RREMAIN` are written by a TICK and by the set-target commands alone; each register of
the command agent but the ramp's keeps its value unless its own command runs. -/
def Obligations.EachRegisterHasItsWriter : Prop :=
  ∀ (i : Instr) (s t : State), exec i s = .next t →
    (i = .tick → t.offmeas = s.offmeas ∧ t.wrap = s.wrap ∧ t.negwrap = s.negwrap ∧ t.rtarget = s.rtarget ∧
      t.rmode = s.rmode ∧ t.rstart = s.rstart ∧ t.rtotal = s.rtotal ∧ t.result = s.result) ∧
    (i ≠ .tick → t.lphase = s.lphase ∧ t.fphase = s.fphase ∧ t.offcur = s.offcur ∧ t.out = s.out) ∧
    (i ≠ .tick → isSetTarget i = false → t.rcurrent = s.rcurrent ∧ t.rremain = s.rremain) ∧
    (isSetTarget i = false → t.rtarget = s.rtarget ∧ t.rmode = s.rmode ∧ t.rstart = s.rstart ∧ t.rtotal = s.rtotal) ∧
    ((∀ v, i ≠ .wroff v) → t.offmeas = s.offmeas) ∧
    ((∀ v, i ≠ .wrfold v) → t.wrap = s.wrap ∧ t.negwrap = s.negwrap) ∧
    ((∀ c, i ≠ .lkcode c) → (∀ n, i ≠ .lknote n) → (∀ r, i ≠ .rdreg r) → t.result = s.result)

/-- "`OUT` changes only at a TICK" (R227(a), marked derived there), but for a reset cycle. -/
def Obligations.OutChangesOnlyAtATick : Prop :=
  ∀ s t : State, step s = .next t → s.event ≠ .run .tick → s.event ≠ .reset → t.out = s.out

/-- Repeating a command with no TICK between leaves the state it left the first time (R55, marked derived there). -/
def Obligations.RepeatedCommandIsIdempotent : Prop :=
  ∀ (i : Instr) (s t : State), i ≠ .tick → exec i s = .next t → exec i t = .next t

/-- Last write wins (R58). Of two commands one right after the other that write the same registers (WROFF, WRFOLD, the
`RESULT` writers LKCODE, LKNOTE and RDREG in any pair, the four set-target commands in any pair) only the second shows;
a glide starts at the `RCURRENT` it finds (R120), which a first set-target of Immediate kind or duration 0, and no other
glide, has changed. With any other commands between the two but no TICK, and but for a glide after such a set-target, the
first is seen afterwards at most in a `RESULT` that one of those commands read. -/
def Obligations.LastWriteWins : Prop :=
  (∀ (i j : Instr) (s : State), isSetTarget i = true → isSetTarget j = true →
    ∃ t, exec i s = .next t ∧ (isGlide i = true → t.rcurrent = s.rcurrent) ∧
      execAll [i, j] s = exec j { s with rcurrent := t.rcurrent }) ∧
  ∀ (i j : Instr), (∃ a b, i = .wroff a ∧ j = .wroff b) ∨ (∃ a b, i = .wrfold a ∧ j = .wrfold b) ∨
      (isReading i = true ∧ isReading j = true) ∨
      (isSetTarget i = true ∧ isSetTarget j = true ∧ (isGlide i = true ∨ isGlide j = false)) →
    (∀ s : State, execAll [i, j] s = exec j s) ∧
    ∀ (is : List Instr) (s : State), .tick ∉ is →
      ∃ t u, execAll (i :: is ++ [j]) s = .next t ∧ execAll (is ++ [j]) s = .next u ∧ t = { u with result := t.result }

/-- No rule reads `RMODE` to decide behaviour (R30, marked derived there) and a TICK does not read `RESULT` (R180): two
machines that differ in these two registers alone produce the same samples for ever, on the same inputs (the list of
inputs to come is the model's, log entry 3). -/
def Obligations.SamplesIgnoreResultAndMode : Prop :=
  ∀ (n : Nat) (s : State) (m : RampMode) (r : BitVec 32),
    samples n { s with rmode := m, result := r } = samples n s

/-- R11: the observation of a run holds the value of `OUT` for each TICK and of `RESULT` for each LKCODE, LKNOTE or
RDREG, in the order of the steps, and nothing else: a reset cycle, an idle cycle, an ignored word and any other command
leave no entry. (The inputs to come, a list of cycles in the last clause, are the model's, log entry 3.) -/
def Obligations.ObservationHasOneEntryPerReading : Prop :=
  (∀ s t : State, s.event = .run .tick → step s = .next t → observations 1 s = [.sample t.out]) ∧
  (∀ (s t : State) (i : Instr), s.event = .run i → isReading i = true → step s = .next t →
    observations 1 s = [.result t.result]) ∧
  (∀ s : State, s.event ≠ .run .tick → (∀ i, s.event = .run i → isReading i = false) → observations 1 s = []) ∧
  (∀ (m n : Nat) (s t : State), Sys2Proof.core.run m s = .next t →
    observations (m + n) s = observations m s ++ observations n t) ∧
  ∀ (is : List Instr) (s : State) (rest : List PortCycle), s.stimulus = stimulusTrace (is.map encode) ++ rest →
    (samples is.length s).length = is.count .tick ∧
    (observations is.length s).length = is.count .tick + is.countP isReading
end

