-- ==== Sys2Proof/Laws/Decode.lean ====
section
/-! SUPPORT. What the decoder does with a word, by the word's `op` field. -/

namespace Sys2Proof

theorem decodeCommand_op0 (w : Word) (h : opField w = 0) :
    decodeCommand w = if w &&& 0xFFFFFFFF = 0x00000000 then .instr (.nop) else .ignored .reservedBits := by
  simp [decodeCommand, opcodeMap, h, OpRow.selects]

theorem decodeCommand_op1 (w : Word) (h : opField w = 1) :
    decodeCommand w = if w &&& 0xFFFF0000 = 0x10000000 then .instr (.settImm (v16Field w)) else .ignored .reservedBits := by
  simp [decodeCommand, opcodeMap, h, OpRow.selects]

theorem decodeCommand_op2 (w : Word) (h : opField w = 2) :
    decodeCommand w = if w &&& 0xF0000000 = 0x20000000 then .instr (.settGlide (v16Field w) (durField w)) else .ignored .reservedBits := by
  simp [decodeCommand, opcodeMap, h, OpRow.selects]

theorem decodeCommand_op3 (w : Word) (h : opField w = 3) :
    decodeCommand w = if w &&& 0xFFFFFF80 = 0x30000000 then .instr (.setnImm (noteField w)) else .ignored .reservedBits := by
  simp [decodeCommand, opcodeMap, h, OpRow.selects]

theorem decodeCommand_op4 (w : Word) (h : opField w = 4) :
    decodeCommand w = if w &&& 0xF000FF80 = 0x40000000 then .instr (.setnGlide (noteField w) (durField w)) else .ignored .reservedBits := by
  simp [decodeCommand, opcodeMap, h, OpRow.selects]

theorem decodeCommand_op5 (w : Word) (h : opField w = 5) :
    decodeCommand w = if w &&& 0xFFFF0000 = 0x50000000 then .instr (.wroff (v16Field w)) else .ignored .reservedBits := by
  simp [decodeCommand, opcodeMap, h, OpRow.selects]

theorem decodeCommand_op6 (w : Word) (h : opField w = 6) :
    decodeCommand w = if w &&& 0xFFFFF800 = 0x60000000 then .instr (.wrfold (v11Field w)) else .ignored .reservedBits := by
  simp [decodeCommand, opcodeMap, h, OpRow.selects]

theorem decodeCommand_op7 (w : Word) (h : opField w = 7) :
    decodeCommand w = if w &&& 0xFFFFFC00 = 0x70000000 then .instr (.lkcode (codeField w)) else .ignored .reservedBits := by
  simp [decodeCommand, opcodeMap, h, OpRow.selects]

theorem decodeCommand_op8 (w : Word) (h : opField w = 8) :
    decodeCommand w = if w &&& 0xFFFFFF80 = 0x80000000 then .instr (.lknote (noteField w)) else .ignored .reservedBits := by
  simp [decodeCommand, opcodeMap, h, OpRow.selects]

theorem decodeCommand_op9 (w : Word) (h : opField w = 9) :
    decodeCommand w = if w &&& 0xFFFFFFF0 = 0x90000000 then .instr (.rdreg (regField w)) else .ignored .reservedBits := by
  simp [decodeCommand, opcodeMap, h, OpRow.selects]

theorem decodeCommand_reserved (w : Word) (h : 10 ≤ (opField w).toNat) :
    decodeCommand w = .ignored .reservedOpcode := by
  have hne : ∀ k : BitVec 4, k.toNat < 10 → (k == opField w) = false := by
    intro k hk
    simp only [beq_eq_false_iff_ne]
    rintro rfl
    omega
  simp [decodeCommand, opcodeMap, hne]

theorem decodeStimulus_tickWord : decodeStimulus tickWord = .instr .tick := by
  simp [decodeStimulus]

theorem decodeStimulus_of_ne (w : Word) (h : w ≠ tickWord) : decodeStimulus w = decodeCommand w := by
  simp [decodeStimulus, h]

/-- The number of two fields laid side by side. -/
theorem toNat_append_eq {n m : Nat} (x : BitVec n) (y : BitVec m) :
    (x ++ y).toNat = x.toNat * 2 ^ m + y.toNat := by
  rw [BitVec.toNat_append, ← Nat.shiftLeft_add_eq_or_of_lt y.isLt, Nat.shiftLeft_eq]

/-- The `op` field is the word divided by 2^28. -/
theorem opField_toNat (w : Word) : (opField w).toNat = w.toNat / 268435456 := by
  have := w.isLt
  simp only [opField, BitVec.extractLsb'_toNat, Nat.shiftRight_eq_div_pow]
  omega

end Sys2Proof
end

