-- ==== Sys2Proof/Laws/State.lean ====
section
/-! SUPPORT. What each update of the state leaves in each field: one lemma per field per update. -/

namespace Sys2Proof.Machine

/-! ### writeResult -/
@[simp] theorem writeResult_lphase (v : BitVec 32) (s : State) : (writeResult v s).lphase = s.lphase := rfl
@[simp] theorem writeResult_fphase (v : BitVec 32) (s : State) : (writeResult v s).fphase = s.fphase := rfl
@[simp] theorem writeResult_offcur (v : BitVec 32) (s : State) : (writeResult v s).offcur = s.offcur := rfl
@[simp] theorem writeResult_offmeas (v : BitVec 32) (s : State) : (writeResult v s).offmeas = s.offmeas := rfl
@[simp] theorem writeResult_wrap (v : BitVec 32) (s : State) : (writeResult v s).wrap = s.wrap := rfl
@[simp] theorem writeResult_negwrap (v : BitVec 32) (s : State) : (writeResult v s).negwrap = s.negwrap := rfl
@[simp] theorem writeResult_rtarget (v : BitVec 32) (s : State) : (writeResult v s).rtarget = s.rtarget := rfl
@[simp] theorem writeResult_rcurrent (v : BitVec 32) (s : State) : (writeResult v s).rcurrent = s.rcurrent := rfl
@[simp] theorem writeResult_rremain (v : BitVec 32) (s : State) : (writeResult v s).rremain = s.rremain := rfl
@[simp] theorem writeResult_rmode (v : BitVec 32) (s : State) : (writeResult v s).rmode = s.rmode := rfl
@[simp] theorem writeResult_out (v : BitVec 32) (s : State) : (writeResult v s).out = s.out := rfl
@[simp] theorem writeResult_result (v : BitVec 32) (s : State) : (writeResult v s).result = v := rfl
@[simp] theorem writeResult_rstart (v : BitVec 32) (s : State) : (writeResult v s).rstart = s.rstart := rfl
@[simp] theorem writeResult_rtotal (v : BitVec 32) (s : State) : (writeResult v s).rtotal = s.rtotal := rfl
@[simp] theorem writeResult_params (v : BitVec 32) (s : State) : (writeResult v s).params = s.params := rfl
@[simp] theorem writeResult_stimulus (v : BitVec 32) (s : State) : (writeResult v s).stimulus = s.stimulus := rfl

/-! ### writeOffmeas -/
@[simp] theorem writeOffmeas_lphase (v : Half) (s : State) : (writeOffmeas v s).lphase = s.lphase := rfl
@[simp] theorem writeOffmeas_fphase (v : Half) (s : State) : (writeOffmeas v s).fphase = s.fphase := rfl
@[simp] theorem writeOffmeas_offcur (v : Half) (s : State) : (writeOffmeas v s).offcur = s.offcur := rfl
@[simp] theorem writeOffmeas_offmeas (v : Half) (s : State) : (writeOffmeas v s).offmeas = v := rfl
@[simp] theorem writeOffmeas_wrap (v : Half) (s : State) : (writeOffmeas v s).wrap = s.wrap := rfl
@[simp] theorem writeOffmeas_negwrap (v : Half) (s : State) : (writeOffmeas v s).negwrap = s.negwrap := rfl
@[simp] theorem writeOffmeas_rtarget (v : Half) (s : State) : (writeOffmeas v s).rtarget = s.rtarget := rfl
@[simp] theorem writeOffmeas_rcurrent (v : Half) (s : State) : (writeOffmeas v s).rcurrent = s.rcurrent := rfl
@[simp] theorem writeOffmeas_rremain (v : Half) (s : State) : (writeOffmeas v s).rremain = s.rremain := rfl
@[simp] theorem writeOffmeas_rmode (v : Half) (s : State) : (writeOffmeas v s).rmode = s.rmode := rfl
@[simp] theorem writeOffmeas_out (v : Half) (s : State) : (writeOffmeas v s).out = s.out := rfl
@[simp] theorem writeOffmeas_result (v : Half) (s : State) : (writeOffmeas v s).result = s.result := rfl
@[simp] theorem writeOffmeas_rstart (v : Half) (s : State) : (writeOffmeas v s).rstart = s.rstart := rfl
@[simp] theorem writeOffmeas_rtotal (v : Half) (s : State) : (writeOffmeas v s).rtotal = s.rtotal := rfl
@[simp] theorem writeOffmeas_params (v : Half) (s : State) : (writeOffmeas v s).params = s.params := rfl
@[simp] theorem writeOffmeas_stimulus (v : Half) (s : State) : (writeOffmeas v s).stimulus = s.stimulus := rfl

/-! ### writeThresholds -/
@[simp] theorem writeThresholds_lphase (w n : Half) (s : State) : (writeThresholds w n s).lphase = s.lphase := rfl
@[simp] theorem writeThresholds_fphase (w n : Half) (s : State) : (writeThresholds w n s).fphase = s.fphase := rfl
@[simp] theorem writeThresholds_offcur (w n : Half) (s : State) : (writeThresholds w n s).offcur = s.offcur := rfl
@[simp] theorem writeThresholds_offmeas (w n : Half) (s : State) : (writeThresholds w n s).offmeas = s.offmeas := rfl
@[simp] theorem writeThresholds_wrap (w n : Half) (s : State) : (writeThresholds w n s).wrap = w := rfl
@[simp] theorem writeThresholds_negwrap (w n : Half) (s : State) : (writeThresholds w n s).negwrap = n := rfl
@[simp] theorem writeThresholds_rtarget (w n : Half) (s : State) : (writeThresholds w n s).rtarget = s.rtarget := rfl
@[simp] theorem writeThresholds_rcurrent (w n : Half) (s : State) : (writeThresholds w n s).rcurrent = s.rcurrent := rfl
@[simp] theorem writeThresholds_rremain (w n : Half) (s : State) : (writeThresholds w n s).rremain = s.rremain := rfl
@[simp] theorem writeThresholds_rmode (w n : Half) (s : State) : (writeThresholds w n s).rmode = s.rmode := rfl
@[simp] theorem writeThresholds_out (w n : Half) (s : State) : (writeThresholds w n s).out = s.out := rfl
@[simp] theorem writeThresholds_result (w n : Half) (s : State) : (writeThresholds w n s).result = s.result := rfl
@[simp] theorem writeThresholds_rstart (w n : Half) (s : State) : (writeThresholds w n s).rstart = s.rstart := rfl
@[simp] theorem writeThresholds_rtotal (w n : Half) (s : State) : (writeThresholds w n s).rtotal = s.rtotal := rfl
@[simp] theorem writeThresholds_params (w n : Half) (s : State) : (writeThresholds w n s).params = s.params := rfl
@[simp] theorem writeThresholds_stimulus (w n : Half) (s : State) : (writeThresholds w n s).stimulus = s.stimulus := rfl

/-! ### leaderStep -/
@[simp] theorem leaderStep_lphase (inc : Half) (s : State) : (leaderStep inc s).lphase = leaderPhase s.lphase inc := rfl
@[simp] theorem leaderStep_fphase (inc : Half) (s : State) : (leaderStep inc s).fphase = s.fphase := rfl
@[simp] theorem leaderStep_offcur (inc : Half) (s : State) : (leaderStep inc s).offcur = s.offcur := rfl
@[simp] theorem leaderStep_offmeas (inc : Half) (s : State) : (leaderStep inc s).offmeas = s.offmeas := rfl
@[simp] theorem leaderStep_wrap (inc : Half) (s : State) : (leaderStep inc s).wrap = s.wrap := rfl
@[simp] theorem leaderStep_negwrap (inc : Half) (s : State) : (leaderStep inc s).negwrap = s.negwrap := rfl
@[simp] theorem leaderStep_rtarget (inc : Half) (s : State) : (leaderStep inc s).rtarget = s.rtarget := rfl
@[simp] theorem leaderStep_rcurrent (inc : Half) (s : State) : (leaderStep inc s).rcurrent = s.rcurrent := rfl
@[simp] theorem leaderStep_rremain (inc : Half) (s : State) : (leaderStep inc s).rremain = s.rremain := rfl
@[simp] theorem leaderStep_rmode (inc : Half) (s : State) : (leaderStep inc s).rmode = s.rmode := rfl
@[simp] theorem leaderStep_out (inc : Half) (s : State) : (leaderStep inc s).out = s.out := rfl
@[simp] theorem leaderStep_result (inc : Half) (s : State) : (leaderStep inc s).result = s.result := rfl
@[simp] theorem leaderStep_rstart (inc : Half) (s : State) : (leaderStep inc s).rstart = s.rstart := rfl
@[simp] theorem leaderStep_rtotal (inc : Half) (s : State) : (leaderStep inc s).rtotal = s.rtotal := rfl
@[simp] theorem leaderStep_params (inc : Half) (s : State) : (leaderStep inc s).params = s.params := rfl
@[simp] theorem leaderStep_stimulus (inc : Half) (s : State) : (leaderStep inc s).stimulus = s.stimulus := rfl

/-! ### offsetStep -/
@[simp] theorem offsetStep_lphase (s : State) : (offsetStep s).lphase = s.lphase := rfl
@[simp] theorem offsetStep_fphase (s : State) : (offsetStep s).fphase = s.fphase := rfl
@[simp] theorem offsetStep_offcur (s : State) : (offsetStep s).offcur = offsetToward s.offcur s.offmeas := rfl
@[simp] theorem offsetStep_offmeas (s : State) : (offsetStep s).offmeas = s.offmeas := rfl
@[simp] theorem offsetStep_wrap (s : State) : (offsetStep s).wrap = s.wrap := rfl
@[simp] theorem offsetStep_negwrap (s : State) : (offsetStep s).negwrap = s.negwrap := rfl
@[simp] theorem offsetStep_rtarget (s : State) : (offsetStep s).rtarget = s.rtarget := rfl
@[simp] theorem offsetStep_rcurrent (s : State) : (offsetStep s).rcurrent = s.rcurrent := rfl
@[simp] theorem offsetStep_rremain (s : State) : (offsetStep s).rremain = s.rremain := rfl
@[simp] theorem offsetStep_rmode (s : State) : (offsetStep s).rmode = s.rmode := rfl
@[simp] theorem offsetStep_out (s : State) : (offsetStep s).out = s.out := rfl
@[simp] theorem offsetStep_result (s : State) : (offsetStep s).result = s.result := rfl
@[simp] theorem offsetStep_rstart (s : State) : (offsetStep s).rstart = s.rstart := rfl
@[simp] theorem offsetStep_rtotal (s : State) : (offsetStep s).rtotal = s.rtotal := rfl
@[simp] theorem offsetStep_params (s : State) : (offsetStep s).params = s.params := rfl
@[simp] theorem offsetStep_stimulus (s : State) : (offsetStep s).stimulus = s.stimulus := rfl

/-! ### followerStep -/
@[simp] theorem followerStep_lphase (s : State) : (followerStep s).lphase = s.lphase := rfl
@[simp] theorem followerStep_fphase (s : State) : (followerStep s).fphase = followerPhase s.lphase s.offcur := rfl
@[simp] theorem followerStep_offcur (s : State) : (followerStep s).offcur = s.offcur := rfl
@[simp] theorem followerStep_offmeas (s : State) : (followerStep s).offmeas = s.offmeas := rfl
@[simp] theorem followerStep_wrap (s : State) : (followerStep s).wrap = s.wrap := rfl
@[simp] theorem followerStep_negwrap (s : State) : (followerStep s).negwrap = s.negwrap := rfl
@[simp] theorem followerStep_rtarget (s : State) : (followerStep s).rtarget = s.rtarget := rfl
@[simp] theorem followerStep_rcurrent (s : State) : (followerStep s).rcurrent = s.rcurrent := rfl
@[simp] theorem followerStep_rremain (s : State) : (followerStep s).rremain = s.rremain := rfl
@[simp] theorem followerStep_rmode (s : State) : (followerStep s).rmode = s.rmode := rfl
@[simp] theorem followerStep_out (s : State) : (followerStep s).out = s.out := rfl
@[simp] theorem followerStep_result (s : State) : (followerStep s).result = s.result := rfl
@[simp] theorem followerStep_rstart (s : State) : (followerStep s).rstart = s.rstart := rfl
@[simp] theorem followerStep_rtotal (s : State) : (followerStep s).rtotal = s.rtotal := rfl
@[simp] theorem followerStep_params (s : State) : (followerStep s).params = s.params := rfl
@[simp] theorem followerStep_stimulus (s : State) : (followerStep s).stimulus = s.stimulus := rfl

/-! ### sampleStep -/
@[simp] theorem sampleStep_lphase (s : State) : (sampleStep s).lphase = s.lphase := rfl
@[simp] theorem sampleStep_fphase (s : State) : (sampleStep s).fphase = s.fphase := rfl
@[simp] theorem sampleStep_offcur (s : State) : (sampleStep s).offcur = s.offcur := rfl
@[simp] theorem sampleStep_offmeas (s : State) : (sampleStep s).offmeas = s.offmeas := rfl
@[simp] theorem sampleStep_wrap (s : State) : (sampleStep s).wrap = s.wrap := rfl
@[simp] theorem sampleStep_negwrap (s : State) : (sampleStep s).negwrap = s.negwrap := rfl
@[simp] theorem sampleStep_rtarget (s : State) : (sampleStep s).rtarget = s.rtarget := rfl
@[simp] theorem sampleStep_rcurrent (s : State) : (sampleStep s).rcurrent = s.rcurrent := rfl
@[simp] theorem sampleStep_rremain (s : State) : (sampleStep s).rremain = s.rremain := rfl
@[simp] theorem sampleStep_rmode (s : State) : (sampleStep s).rmode = s.rmode := rfl
@[simp] theorem sampleStep_out (s : State) : (sampleStep s).out = fold s.wrap s.negwrap (ring (psin s.lphase) (psin s.fphase)) := rfl
@[simp] theorem sampleStep_result (s : State) : (sampleStep s).result = s.result := rfl
@[simp] theorem sampleStep_rstart (s : State) : (sampleStep s).rstart = s.rstart := rfl
@[simp] theorem sampleStep_rtotal (s : State) : (sampleStep s).rtotal = s.rtotal := rfl
@[simp] theorem sampleStep_params (s : State) : (sampleStep s).params = s.params := rfl
@[simp] theorem sampleStep_stimulus (s : State) : (sampleStep s).stimulus = s.stimulus := rfl

/-! ### takeInput -/
@[simp] theorem takeInput_lphase (s : State) : (takeInput s).lphase = s.lphase := rfl
@[simp] theorem takeInput_fphase (s : State) : (takeInput s).fphase = s.fphase := rfl
@[simp] theorem takeInput_offcur (s : State) : (takeInput s).offcur = s.offcur := rfl
@[simp] theorem takeInput_offmeas (s : State) : (takeInput s).offmeas = s.offmeas := rfl
@[simp] theorem takeInput_wrap (s : State) : (takeInput s).wrap = s.wrap := rfl
@[simp] theorem takeInput_negwrap (s : State) : (takeInput s).negwrap = s.negwrap := rfl
@[simp] theorem takeInput_rtarget (s : State) : (takeInput s).rtarget = s.rtarget := rfl
@[simp] theorem takeInput_rcurrent (s : State) : (takeInput s).rcurrent = s.rcurrent := rfl
@[simp] theorem takeInput_rremain (s : State) : (takeInput s).rremain = s.rremain := rfl
@[simp] theorem takeInput_rmode (s : State) : (takeInput s).rmode = s.rmode := rfl
@[simp] theorem takeInput_out (s : State) : (takeInput s).out = s.out := rfl
@[simp] theorem takeInput_result (s : State) : (takeInput s).result = s.result := rfl
@[simp] theorem takeInput_rstart (s : State) : (takeInput s).rstart = s.rstart := rfl
@[simp] theorem takeInput_rtotal (s : State) : (takeInput s).rtotal = s.rtotal := rfl
@[simp] theorem takeInput_params (s : State) : (takeInput s).params = s.params := rfl
@[simp] theorem takeInput_stimulus (s : State) : (takeInput s).stimulus = (nextEvent s.stimulus).2 := rfl

/-! ### presentWord -/
@[simp] theorem presentWord_lphase (w : Word) (s : State) : (presentWord w s).lphase = s.lphase := rfl
@[simp] theorem presentWord_fphase (w : Word) (s : State) : (presentWord w s).fphase = s.fphase := rfl
@[simp] theorem presentWord_offcur (w : Word) (s : State) : (presentWord w s).offcur = s.offcur := rfl
@[simp] theorem presentWord_offmeas (w : Word) (s : State) : (presentWord w s).offmeas = s.offmeas := rfl
@[simp] theorem presentWord_wrap (w : Word) (s : State) : (presentWord w s).wrap = s.wrap := rfl
@[simp] theorem presentWord_negwrap (w : Word) (s : State) : (presentWord w s).negwrap = s.negwrap := rfl
@[simp] theorem presentWord_rtarget (w : Word) (s : State) : (presentWord w s).rtarget = s.rtarget := rfl
@[simp] theorem presentWord_rcurrent (w : Word) (s : State) : (presentWord w s).rcurrent = s.rcurrent := rfl
@[simp] theorem presentWord_rremain (w : Word) (s : State) : (presentWord w s).rremain = s.rremain := rfl
@[simp] theorem presentWord_rmode (w : Word) (s : State) : (presentWord w s).rmode = s.rmode := rfl
@[simp] theorem presentWord_out (w : Word) (s : State) : (presentWord w s).out = s.out := rfl
@[simp] theorem presentWord_result (w : Word) (s : State) : (presentWord w s).result = s.result := rfl
@[simp] theorem presentWord_rstart (w : Word) (s : State) : (presentWord w s).rstart = s.rstart := rfl
@[simp] theorem presentWord_rtotal (w : Word) (s : State) : (presentWord w s).rtotal = s.rtotal := rfl
@[simp] theorem presentWord_params (w : Word) (s : State) : (presentWord w s).params = s.params := rfl
@[simp] theorem presentWord_stimulus (w : Word) (s : State) : (presentWord w s).stimulus = stimulusCycle w :: s.stimulus := rfl

/-! ### resetRegisters -/
@[simp] theorem resetRegisters_lphase (s : State) : (resetRegisters s).lphase = 0 := rfl
@[simp] theorem resetRegisters_fphase (s : State) : (resetRegisters s).fphase = 0 := rfl
@[simp] theorem resetRegisters_offcur (s : State) : (resetRegisters s).offcur = 0 := rfl
@[simp] theorem resetRegisters_offmeas (s : State) : (resetRegisters s).offmeas = 0 := rfl
@[simp] theorem resetRegisters_wrap (s : State) : (resetRegisters s).wrap = 64 := rfl
@[simp] theorem resetRegisters_negwrap (s : State) : (resetRegisters s).negwrap = 64 := rfl
@[simp] theorem resetRegisters_rtarget (s : State) : (resetRegisters s).rtarget = lookupByMidiNote s.params 0 := rfl
@[simp] theorem resetRegisters_rcurrent (s : State) : (resetRegisters s).rcurrent = lookupByMidiNote s.params 0 := rfl
@[simp] theorem resetRegisters_rremain (s : State) : (resetRegisters s).rremain = 0 := rfl
@[simp] theorem resetRegisters_rmode (s : State) : (resetRegisters s).rmode = .immediate := rfl
@[simp] theorem resetRegisters_out (s : State) : (resetRegisters s).out = 128 := rfl
@[simp] theorem resetRegisters_result (s : State) : (resetRegisters s).result = 0 := rfl
@[simp] theorem resetRegisters_rstart (s : State) : (resetRegisters s).rstart = lookupByMidiNote s.params 0 := rfl
@[simp] theorem resetRegisters_rtotal (s : State) : (resetRegisters s).rtotal = 0 := rfl
@[simp] theorem resetRegisters_params (s : State) : (resetRegisters s).params = s.params := rfl
@[simp] theorem resetRegisters_stimulus (s : State) : (resetRegisters s).stimulus = s.stimulus := rfl

/-! ### rampAdvance -/
@[simp] theorem rampAdvance_lphase (s : State) : (rampAdvance s).lphase = s.lphase := by unfold rampAdvance; split <;> rfl
@[simp] theorem rampAdvance_fphase (s : State) : (rampAdvance s).fphase = s.fphase := by unfold rampAdvance; split <;> rfl
@[simp] theorem rampAdvance_offcur (s : State) : (rampAdvance s).offcur = s.offcur := by unfold rampAdvance; split <;> rfl
@[simp] theorem rampAdvance_offmeas (s : State) : (rampAdvance s).offmeas = s.offmeas := by unfold rampAdvance; split <;> rfl
@[simp] theorem rampAdvance_wrap (s : State) : (rampAdvance s).wrap = s.wrap := by unfold rampAdvance; split <;> rfl
@[simp] theorem rampAdvance_negwrap (s : State) : (rampAdvance s).negwrap = s.negwrap := by unfold rampAdvance; split <;> rfl
@[simp] theorem rampAdvance_rtarget (s : State) : (rampAdvance s).rtarget = s.rtarget := by unfold rampAdvance; split <;> rfl
@[simp] theorem rampAdvance_rmode (s : State) : (rampAdvance s).rmode = s.rmode := by unfold rampAdvance; split <;> rfl
@[simp] theorem rampAdvance_out (s : State) : (rampAdvance s).out = s.out := by unfold rampAdvance; split <;> rfl
@[simp] theorem rampAdvance_result (s : State) : (rampAdvance s).result = s.result := by unfold rampAdvance; split <;> rfl
@[simp] theorem rampAdvance_rstart (s : State) : (rampAdvance s).rstart = s.rstart := by unfold rampAdvance; split <;> rfl
@[simp] theorem rampAdvance_rtotal (s : State) : (rampAdvance s).rtotal = s.rtotal := by unfold rampAdvance; split <;> rfl
@[simp] theorem rampAdvance_params (s : State) : (rampAdvance s).params = s.params := by unfold rampAdvance; split <;> rfl
@[simp] theorem rampAdvance_stimulus (s : State) : (rampAdvance s).stimulus = s.stimulus := by unfold rampAdvance; split <;> rfl

/-! ### rampSetTarget -/
@[simp] theorem rampSetTarget_lphase (T : Half) (D : Nat) (g : Bool) (s : State) : (rampSetTarget T D g s).lphase = s.lphase := by unfold rampSetTarget; split <;> rfl
@[simp] theorem rampSetTarget_fphase (T : Half) (D : Nat) (g : Bool) (s : State) : (rampSetTarget T D g s).fphase = s.fphase := by unfold rampSetTarget; split <;> rfl
@[simp] theorem rampSetTarget_offcur (T : Half) (D : Nat) (g : Bool) (s : State) : (rampSetTarget T D g s).offcur = s.offcur := by unfold rampSetTarget; split <;> rfl
@[simp] theorem rampSetTarget_offmeas (T : Half) (D : Nat) (g : Bool) (s : State) : (rampSetTarget T D g s).offmeas = s.offmeas := by unfold rampSetTarget; split <;> rfl
@[simp] theorem rampSetTarget_wrap (T : Half) (D : Nat) (g : Bool) (s : State) : (rampSetTarget T D g s).wrap = s.wrap := by unfold rampSetTarget; split <;> rfl
@[simp] theorem rampSetTarget_negwrap (T : Half) (D : Nat) (g : Bool) (s : State) : (rampSetTarget T D g s).negwrap = s.negwrap := by unfold rampSetTarget; split <;> rfl
@[simp] theorem rampSetTarget_rtarget (T : Half) (D : Nat) (g : Bool) (s : State) : (rampSetTarget T D g s).rtarget = T := by unfold rampSetTarget; split <;> rfl
@[simp] theorem rampSetTarget_out (T : Half) (D : Nat) (g : Bool) (s : State) : (rampSetTarget T D g s).out = s.out := by unfold rampSetTarget; split <;> rfl
@[simp] theorem rampSetTarget_result (T : Half) (D : Nat) (g : Bool) (s : State) : (rampSetTarget T D g s).result = s.result := by unfold rampSetTarget; split <;> rfl
@[simp] theorem rampSetTarget_params (T : Half) (D : Nat) (g : Bool) (s : State) : (rampSetTarget T D g s).params = s.params := by unfold rampSetTarget; split <;> rfl
@[simp] theorem rampSetTarget_stimulus (T : Half) (D : Nat) (g : Bool) (s : State) : (rampSetTarget T D g s).stimulus = s.stimulus := by unfold rampSetTarget; split <;> rfl

/-! ### pitchStep -/
@[simp] theorem pitchStep_lphase (s : State) : (pitchStep s).lphase = leaderPhase s.lphase (rampAdvance s).rcurrent := by simp [pitchStep]
@[simp] theorem pitchStep_fphase (s : State) : (pitchStep s).fphase = s.fphase := by simp [pitchStep]
@[simp] theorem pitchStep_offcur (s : State) : (pitchStep s).offcur = s.offcur := by simp [pitchStep]
@[simp] theorem pitchStep_offmeas (s : State) : (pitchStep s).offmeas = s.offmeas := by simp [pitchStep]
@[simp] theorem pitchStep_wrap (s : State) : (pitchStep s).wrap = s.wrap := by simp [pitchStep]
@[simp] theorem pitchStep_negwrap (s : State) : (pitchStep s).negwrap = s.negwrap := by simp [pitchStep]
@[simp] theorem pitchStep_rtarget (s : State) : (pitchStep s).rtarget = s.rtarget := by simp [pitchStep]
@[simp] theorem pitchStep_rcurrent (s : State) : (pitchStep s).rcurrent = (rampAdvance s).rcurrent := by simp [pitchStep]
@[simp] theorem pitchStep_rremain (s : State) : (pitchStep s).rremain = (rampAdvance s).rremain := by simp [pitchStep]
@[simp] theorem pitchStep_rmode (s : State) : (pitchStep s).rmode = s.rmode := by simp [pitchStep]
@[simp] theorem pitchStep_out (s : State) : (pitchStep s).out = s.out := by simp [pitchStep]
@[simp] theorem pitchStep_result (s : State) : (pitchStep s).result = s.result := by simp [pitchStep]
@[simp] theorem pitchStep_rstart (s : State) : (pitchStep s).rstart = s.rstart := by simp [pitchStep]
@[simp] theorem pitchStep_rtotal (s : State) : (pitchStep s).rtotal = s.rtotal := by simp [pitchStep]
@[simp] theorem pitchStep_params (s : State) : (pitchStep s).params = s.params := by simp [pitchStep]
@[simp] theorem pitchStep_stimulus (s : State) : (pitchStep s).stimulus = s.stimulus := by simp [pitchStep]

/-! ### tickStep -/
@[simp] theorem tickStep_lphase (s : State) : (tickStep s).lphase = leaderPhase s.lphase (rampAdvance s).rcurrent := by simp [tickStep]
theorem tickStep_fphase (s : State) : (tickStep s).fphase = followerPhase (tickStep s).lphase (tickStep s).offcur := by simp [tickStep]
@[simp] theorem tickStep_offcur (s : State) : (tickStep s).offcur = offsetToward s.offcur s.offmeas := by simp [tickStep]
@[simp] theorem tickStep_offmeas (s : State) : (tickStep s).offmeas = s.offmeas := by simp [tickStep]
@[simp] theorem tickStep_wrap (s : State) : (tickStep s).wrap = s.wrap := by simp [tickStep]
@[simp] theorem tickStep_negwrap (s : State) : (tickStep s).negwrap = s.negwrap := by simp [tickStep]
@[simp] theorem tickStep_rtarget (s : State) : (tickStep s).rtarget = s.rtarget := by simp [tickStep]
@[simp] theorem tickStep_rcurrent (s : State) : (tickStep s).rcurrent = (rampAdvance s).rcurrent := by simp [tickStep]
@[simp] theorem tickStep_rremain (s : State) : (tickStep s).rremain = (rampAdvance s).rremain := by simp [tickStep]
@[simp] theorem tickStep_rmode (s : State) : (tickStep s).rmode = s.rmode := by simp [tickStep]
theorem tickStep_out (s : State) : (tickStep s).out = fold s.wrap s.negwrap (ring (psin (tickStep s).lphase) (psin (tickStep s).fphase)) := by simp [tickStep]
@[simp] theorem tickStep_result (s : State) : (tickStep s).result = s.result := by simp [tickStep]
@[simp] theorem tickStep_rstart (s : State) : (tickStep s).rstart = s.rstart := by simp [tickStep]
@[simp] theorem tickStep_rtotal (s : State) : (tickStep s).rtotal = s.rtotal := by simp [tickStep]
@[simp] theorem tickStep_params (s : State) : (tickStep s).params = s.params := by simp [tickStep]
@[simp] theorem tickStep_stimulus (s : State) : (tickStep s).stimulus = s.stimulus := by simp [tickStep]

end Sys2Proof.Machine
end

