-- ==== Sys2Proof/Laws/Ops.lean ====
section
/-! SUPPORT. What each shared operation does, said once: the ramp primitives, the meanings, the lists of operations. -/

namespace Sys2Proof.Machine

/-! ### The ramp primitives -/

theorem rampSetTarget_immediate (T : Half) (D : Nat) (g : Bool) (s : State) (h : g = false ∨ D = 0) :
    rampSetTarget T D g s =
      { s with rtarget := T, rcurrent := T, rstart := T, rtotal := 0, rremain := 0, rmode := .immediate } := by
  simp [rampSetTarget, h]

theorem rampSetTarget_glide (T : Half) (D : Nat) (s : State) (h : D ≠ 0) :
    rampSetTarget T D true s =
      { s with
        rtarget := T
        rstart := s.rcurrent
        rtotal := BitVec.ofNat 32 (glideTicks s.params.tickHz D)
        rremain := BitVec.ofNat 32 (glideTicks s.params.tickHz D)
        rmode := .timedLinear } := by
  simp [rampSetTarget, h]

/-- A glide keeps the current increment. -/
theorem rampSetTarget_glide_rcurrent (T : Half) (D : Nat) (s : State) (h : D ≠ 0) :
    (rampSetTarget T D true s).rcurrent = s.rcurrent := by
  rw [rampSetTarget_glide T D s h]

/-- Of two set-targets the second overwrites the first, but for the increment a glide starts at. -/
theorem rampSetTarget_rampSetTarget (T T' : Half) (D D' : Nat) (g g' : Bool) (s : State) :
    rampSetTarget T' D' g' (rampSetTarget T D g s) =
      rampSetTarget T' D' g' { s with rcurrent := (rampSetTarget T D g s).rcurrent } := by
  simp only [rampSetTarget]
  split <;> split <;> rfl

/-- `RESULT` is no numbered register, so a read-back does not see it (R38). -/
@[simp] theorem readRegister_writeResult (v : BitVec 32) (s : State) (reg : BitVec 4) :
    readRegister (writeResult v s) reg = readRegister s reg := rfl

theorem rampAdvance_idle (s : State) (h : s.rremain = 0 ∨ s.rcurrent = s.rtarget) :
    rampAdvance s = { s with rremain := 0 } := by
  rw [rampAdvance, if_pos h]

theorem rampAdvance_active (s : State) (h : s.rremain ≠ 0) (h' : s.rcurrent ≠ s.rtarget) :
    rampAdvance s =
      { s with
        rremain := s.rremain - 1
        rcurrent :=
          interpolate s.rstart s.rtarget ((s.rtotal.toNat : Int) - (s.rremain - 1).toNat) s.rtotal.toNat } := by
  rw [rampAdvance, if_neg (not_or.mpr ⟨h, h'⟩)]

/-- Where R15 defines it, `tdiv` is division truncated toward zero. -/
theorem tdiv_of_pos (a : Int) (b : Nat) (h : b ≠ 0) : tdiv a b = a.tdiv b := by
  simp [tdiv, h]

/-! ### The meanings -/

theorem exec_nop (s : State) : exec .nop s = .next s := rfl
theorem exec_settImm (T : Half) (s : State) : exec (.settImm T) s = .next (rampSetTarget T 0 false s) := rfl
theorem exec_settGlide (T : Half) (d : BitVec 12) (s : State) :
    exec (.settGlide T d) s = .next (rampSetTarget T d.toNat true s) := rfl
theorem exec_setnImm (n : BitVec 7) (s : State) :
    exec (.setnImm n) s = .next (rampSetTarget (lookupByMidiNote s.params n.toNat) 0 false s) := rfl
theorem exec_setnGlide (n : BitVec 7) (d : BitVec 12) (s : State) :
    exec (.setnGlide n d) s = .next (rampSetTarget (lookupByMidiNote s.params n.toNat) d.toNat true s) := rfl
theorem exec_wroff (v : Half) (s : State) : exec (.wroff v) s = .next (writeOffmeas v s) := rfl
theorem exec_wrfold (v : BitVec 11) (s : State) :
    exec (.wrfold v) s =
      .next (writeThresholds (BitVec.ofNat 16 (foldWrap v.toNat)) (BitVec.ofNat 16 (foldNegwrap v.toNat)) s) := rfl
theorem exec_lkcode (c : BitVec 10) (s : State) :
    exec (.lkcode c) s = .next (writeResult ((lookupByCode s.params c).setWidth 32) s) := rfl
theorem exec_lknote (n : BitVec 7) (s : State) :
    exec (.lknote n) s = .next (writeResult ((lookupByMidiNote s.params n.toNat).setWidth 32) s) := rfl
theorem exec_rdreg (r : BitVec 4) (s : State) : exec (.rdreg r) s = .next (writeResult (readRegister s r) s) := rfl
theorem exec_tick (s : State) : exec .tick s = .next (tickStep s) := rfl

/-- Everything a TICK can do to the state, as one update. -/
theorem tickStep_eq (s : State) :
    tickStep s =
      { s with
        rcurrent := (rampAdvance s).rcurrent
        rremain := (rampAdvance s).rremain
        lphase := leaderPhase s.lphase (rampAdvance s).rcurrent
        offcur := offsetToward s.offcur s.offmeas
        fphase := (tickStep s).fphase
        out := (tickStep s).out } := by
  unfold tickStep sampleStep followerStep offsetStep pitchStep leaderStep rampAdvance
  split <;> rfl

/-! ### Lists of operations -/

@[simp] theorem execAll_nil (s : State) : execAll [] s = .next s := rfl

theorem execAll_cons (i : Instr) (is : List Instr) (s t : State) (h : exec i s = .next t) :
    execAll (i :: is) s = execAll is t := by
  simp [execAll, h]

end Sys2Proof.Machine
end

