-- ==== Sys2Proof/Laws/PerInstr.lean ====
section
/-! SUPPORT. Statements about every operation as syntax, one lemma per constructor: `WellFormed`, that its operands fit
their fields (R79, R85), and `Opcode`, that its word carries its `op` of R80. -/

namespace Sys2Proof

/-- The `op` value of an operation (R80); for TICK that of its stimulus word (R83). -/
def Instr.opcode : Instr → BitVec 4
  | .nop => 0#4
  | .settImm _ => 1#4
  | .settGlide _ _ => 2#4
  | .setnImm _ => 3#4
  | .setnGlide _ _ => 4#4
  | .wroff _ => 5#4
  | .wrfold _ => 6#4
  | .lkcode _ => 7#4
  | .lknote _ => 8#4
  | .rdreg _ => 9#4
  | .tick => 15#4

end Sys2Proof

namespace Sys2Proof.Laws.WellFormed

/-- Every operand of the operation fits its field. -/
def Statement (i : Instr) : Prop := i.wellFormed = true

theorem nop : Statement (.nop) := by
  rfl

theorem settImm (target : Half) : Statement (.settImm target) := by
  have h0 := target.isLt
  simp [Statement, Instr.wellFormed, Instr.toStmt, Stmt.wellFormed]
  omega

theorem settGlide (target : Half) (dur : BitVec 12) : Statement (.settGlide target dur) := by
  have h0 := target.isLt
  have h1 := dur.isLt
  simp [Statement, Instr.wellFormed, Instr.toStmt, Stmt.wellFormed]
  omega

theorem setnImm (note : BitVec 7) : Statement (.setnImm note) := by
  have h0 := note.isLt
  simp [Statement, Instr.wellFormed, Instr.toStmt, Stmt.wellFormed]
  omega

theorem setnGlide (note : BitVec 7) (dur : BitVec 12) : Statement (.setnGlide note dur) := by
  have h0 := note.isLt
  have h1 := dur.isLt
  simp [Statement, Instr.wellFormed, Instr.toStmt, Stmt.wellFormed]
  omega

theorem wroff (v16 : Half) : Statement (.wroff v16) := by
  have h0 := v16.isLt
  simp [Statement, Instr.wellFormed, Instr.toStmt, Stmt.wellFormed]
  omega

theorem wrfold (v11 : BitVec 11) : Statement (.wrfold v11) := by
  have h0 := v11.isLt
  simp [Statement, Instr.wellFormed, Instr.toStmt, Stmt.wellFormed]
  omega

theorem lkcode (code : BitVec 10) : Statement (.lkcode code) := by
  have h0 := code.isLt
  simp [Statement, Instr.wellFormed, Instr.toStmt, Stmt.wellFormed]
  omega

theorem lknote (note : BitVec 7) : Statement (.lknote note) := by
  have h0 := note.isLt
  simp [Statement, Instr.wellFormed, Instr.toStmt, Stmt.wellFormed]
  omega

theorem rdreg (reg : BitVec 4) : Statement (.rdreg reg) := by
  have h0 := reg.isLt
  exact decide_eq_true (show reg.toNat ≤ 15 by omega)

theorem tick : Statement (.tick) := by
  rfl

end Sys2Proof.Laws.WellFormed

namespace Sys2Proof.Laws.Opcode

/-- The word of the operation has the operation's `op` in bits 31:28. -/
def Statement (i : Instr) : Prop := opField (encode i) = i.opcode

theorem nop : Statement (.nop) := by
  rfl

theorem settImm (target : Half) : Statement (.settImm target) := by
  have h0 := target.isLt
  apply BitVec.eq_of_toNat_eq
  rw [opField_toNat]
  simp only [encode, toNat_append_eq, Instr.opcode, BitVec.toNat_ofNat]
  omega

theorem settGlide (target : Half) (dur : BitVec 12) : Statement (.settGlide target dur) := by
  have h0 := target.isLt
  have h1 := dur.isLt
  apply BitVec.eq_of_toNat_eq
  rw [opField_toNat]
  simp only [encode, toNat_append_eq, Instr.opcode, BitVec.toNat_ofNat]
  omega

theorem setnImm (note : BitVec 7) : Statement (.setnImm note) := by
  have h0 := note.isLt
  apply BitVec.eq_of_toNat_eq
  rw [opField_toNat]
  simp only [encode, toNat_append_eq, Instr.opcode, BitVec.toNat_ofNat]
  omega

theorem setnGlide (note : BitVec 7) (dur : BitVec 12) : Statement (.setnGlide note dur) := by
  have h0 := note.isLt
  have h1 := dur.isLt
  apply BitVec.eq_of_toNat_eq
  rw [opField_toNat]
  simp only [encode, toNat_append_eq, Instr.opcode, BitVec.toNat_ofNat]
  omega

theorem wroff (v16 : Half) : Statement (.wroff v16) := by
  have h0 := v16.isLt
  apply BitVec.eq_of_toNat_eq
  rw [opField_toNat]
  simp only [encode, toNat_append_eq, Instr.opcode, BitVec.toNat_ofNat]
  omega

theorem wrfold (v11 : BitVec 11) : Statement (.wrfold v11) := by
  have h0 := v11.isLt
  apply BitVec.eq_of_toNat_eq
  rw [opField_toNat]
  simp only [encode, toNat_append_eq, Instr.opcode, BitVec.toNat_ofNat]
  omega

theorem lkcode (code : BitVec 10) : Statement (.lkcode code) := by
  have h0 := code.isLt
  apply BitVec.eq_of_toNat_eq
  rw [opField_toNat]
  simp only [encode, toNat_append_eq, Instr.opcode, BitVec.toNat_ofNat]
  omega

theorem lknote (note : BitVec 7) : Statement (.lknote note) := by
  have h0 := note.isLt
  apply BitVec.eq_of_toNat_eq
  rw [opField_toNat]
  simp only [encode, toNat_append_eq, Instr.opcode, BitVec.toNat_ofNat]
  omega

theorem rdreg (reg : BitVec 4) : Statement (.rdreg reg) := by
  have h0 := reg.isLt
  apply BitVec.eq_of_toNat_eq
  rw [opField_toNat]
  simp only [encode, toNat_append_eq, Instr.opcode, BitVec.toNat_ofNat]
  omega

theorem tick : Statement (.tick) := by
  rfl

end Sys2Proof.Laws.Opcode
end

