-- ==== Sys2Proof/Laws/Ramp.lean ====
section
/-! SUPPORT. The interpolation of the ramp: it stays between its ends and never leaves 16 bits. -/

namespace Sys2Proof.Machine

/-- Truncated division of a part of a distance: bounds, for a distance that is not negative. -/
theorem tdiv_part_of_nonneg (d k N : Int) (hd : 0 ≤ d) (hk : 0 ≤ k) (hkN : k ≤ N) (hN : 0 < N) :
    0 ≤ (d * k).tdiv N ∧ (d * k).tdiv N ≤ d ∧ N * (d * k).tdiv N ≤ d * k ∧ d * k < N * (d * k).tdiv N + N := by
  have h0 : 0 ≤ d * k := mul_nonneg hd hk
  rw [Int.tdiv_eq_ediv_of_nonneg h0]
  refine ⟨Int.ediv_nonneg h0 (by omega), ?_, Int.mul_ediv_self_le (by omega), Int.lt_mul_ediv_self_add hN⟩
  apply Int.ediv_le_of_le_mul hN
  nlinarith

/-- Truncated division of a part of a distance: the result lies between 0 and the distance, and its multiple differs
from the part by less than the divisor. -/
theorem tdiv_part_bounds (d k N : Int) (hk : 0 ≤ k) (hkN : k ≤ N) (hN : 0 < N) :
    min d 0 ≤ (d * k).tdiv N ∧ (d * k).tdiv N ≤ max d 0 ∧ |N * (d * k).tdiv N - d * k| < N := by
  rcases le_total 0 d with h | h
  · obtain ⟨h1, h2, h3, h4⟩ := tdiv_part_of_nonneg d k N h hk hkN hN
    refine ⟨by omega, by omega, ?_⟩
    rw [abs_lt]
    constructor <;> linarith
  · obtain ⟨h1, h2, h3, h4⟩ := tdiv_part_of_nonneg (-d) k N (by omega) hk hkN hN
    have hneg : (d * k).tdiv N = -((-d * k).tdiv N) := by
      rw [neg_mul, Int.neg_tdiv]
      simp
    rw [hneg]
    refine ⟨by omega, by omega, ?_⟩
    rw [abs_lt]
    constructor <;> nlinarith

/-- The point of a ramp after `k` of `N` ticks, as an integer, and that it lies between start and target (R122). -/
theorem interpolate_toNat (S T : Half) (k : Int) (N : Nat) (hk : 0 ≤ k) (hkN : k ≤ N) (hN : N ≠ 0) :
    ((interpolate S T k N).toNat : Int) = S.toNat + (((T.toNat : Int) - S.toNat) * k).tdiv N ∧
    min S.toNat T.toNat ≤ (interpolate S T k N).toNat ∧ (interpolate S T k N).toNat ≤ max S.toNat T.toNat := by
  obtain ⟨h1, h2, -⟩ := tdiv_part_bounds ((T.toNat : Int) - S.toNat) k N hk hkN (by omega)
  have hs := S.isLt
  have ht := T.isLt
  have he : ((interpolate S T k N).toNat : Int) = S.toNat + (((T.toNat : Int) - S.toNat) * k).tdiv N := by
    simp only [interpolate, BitVec.toNat_ofInt, tdiv_of_pos _ _ hN]
    omega
  exact ⟨he, by omega, by omega⟩

/-- `RREMAIN - 1` of a ramp that is not idle. -/
theorem remain_pred_toNat (s : State) (h : s.rremain ≠ 0) : (s.rremain - 1).toNat = s.rremain.toNat - 1 := by
  have hlt := s.rremain.isLt
  have hne : s.rremain.toNat ≠ 0 := fun hh => h (BitVec.eq_of_toNat_eq (by simpa using hh))
  simp [BitVec.toNat_sub]
  omega

end Sys2Proof.Machine
end

