-- ==== Sys2Proof/Laws/Step.lean ====
section
/-! SUPPORT. What the next event is, and what one step does with it. -/

namespace Sys2Proof.Machine

theorem nextEvent_nil : nextEvent [] = (.idle, []) := rfl

theorem nextEvent_reset (c : PortCycle) (rest : List PortCycle) (h : c.rst = true) :
    nextEvent (c :: rest) = (.reset, rest) := by
  simp [nextEvent, h]

theorem nextEvent_command (c : PortCycle) (rest : List PortCycle) (h : c.rst = false) (h' : c.cmdValid = true) :
    nextEvent (c :: rest) = (decodedEvent (decodeCommand c.cmdWord), afterCommand c rest) := by
  simp [nextEvent, h, h']

theorem nextEvent_tick (c : PortCycle) (rest : List PortCycle) (h : c.rst = false) (h' : c.cmdValid = false)
    (h'' : c.tick = true) : nextEvent (c :: rest) = (.run .tick, rest) := by
  simp [nextEvent, h, h', h'']

theorem nextEvent_idle (c : PortCycle) (rest : List PortCycle) (h : c.rst = false) (h' : c.cmdValid = false)
    (h'' : c.tick = false) : nextEvent (c :: rest) = (.idle, rest) := by
  simp [nextEvent, h, h', h'']

theorem step_of_idle (s : State) (h : s.event = .idle) : step s = .next (takeInput s) := by
  simp [step, h]

theorem step_of_reset (s : State) (h : s.event = .reset) : step s = .next (resetRegisters (takeInput s)) := by
  simp [step, h]

theorem step_of_ignored (s : State) (why : IgnoreReason) (h : s.event = .ignored why) :
    step s = .next (takeInput s) := by
  simp [step, h]

theorem step_of_run (s : State) (i : Instr) (h : s.event = .run i) : step s = exec i (takeInput s) := by
  simp [step, h]

/-- Everything a step that answers a next state can do. -/
theorem step_cases (s t : State) (h : step s = .next t) :
    ((s.event = .idle ∨ ∃ why, s.event = .ignored why) ∧ t = takeInput s) ∨
    (s.event = .reset ∧ t = resetRegisters (takeInput s)) ∨
    ∃ i, s.event = .run i ∧ exec i (takeInput s) = .next t := by
  cases he : s.event with
  | idle =>
    rw [step_of_idle s he] at h
    cases h
    exact .inl ⟨.inl rfl, rfl⟩
  | reset =>
    rw [step_of_reset s he] at h
    cases h
    exact .inr (.inl ⟨rfl, rfl⟩)
  | ignored why =>
    rw [step_of_ignored s why he] at h
    cases h
    exact .inl ⟨.inr ⟨why, rfl⟩, rfl⟩
  | run i => exact .inr (.inr ⟨i, rfl, by rw [← step_of_run s i he]; exact h⟩)

/-- One more step of a run. -/
theorem run_succ_of_next (n : Nat) (s t : State) (h : step s = .next t) :
    Sys2Proof.core.run (n + 1) s = Sys2Proof.core.run n t := by
  have h' : Sys2Proof.core.step s = .next t := h
  simp only [Host.Core.run]
  rw [h']

end Sys2Proof.Machine
end

