-- ==== Sys2Proof/Laws/Wave.lean ====
section
/-! SUPPORT. The arithmetic of a TICK in natural numbers, one lemma per function: what each answers, with no wrap left
in it. -/

namespace Sys2Proof.Machine

theorem leaderPhase_toNat (l inc : Half) : (leaderPhase l inc).toNat = (l.toNat + inc.toNat) % 65536 := by
  simp [leaderPhase]

theorem offsetToward_toNat (a b : Half) :
    (offsetToward a b).toNat =
      if a.toNat < b.toNat then a.toNat + 1 else if b.toNat < a.toNat then a.toNat - 1 else a.toNat := by
  have ha := a.isLt
  have hb := b.isLt
  simp only [offsetToward, BitVec.lt_def, gt_iff_lt]
  split
  · rw [BitVec.toNat_ofNat]
    omega
  · split
    · rw [BitVec.toNat_ofNat]
      omega
    · rfl

theorem followerPhase_toNat (l o : Half) :
    (followerPhase l o).toNat = (l.toNat + l.toNat * o.toNat / 256) % 65536 := by
  simp [followerPhase, Nat.shiftRight_eq_div_pow]

/-- The byte of the phase the sine uses, bits 14:7. -/
theorem phaseByte_toNat (p : Half) : (p.extractLsb' 7 8).toNat = p.toNat / 128 % 256 := by
  simp [BitVec.extractLsb'_toNat, Nat.shiftRight_eq_div_pow]

theorem psin_neg_iff (p : Half) : (psin p).neg = true ↔ p.getLsbD 15 = true := Iff.rfl

/-- The product of a byte and its complement fits 14 bits, so its rescaled value fits 7. -/
theorem byte_times_complement (x : BitVec 8) :
    x.toNat * (x ^^^ 0xFF#8).toNat = x.toNat * (255 - x.toNat) ∧ x.toNat * (255 - x.toNat) / 128 < 128 := by
  revert x
  decide

theorem ring_mag_toNat (a b : SignMag) : (ring a b).mag.toNat = a.mag.toNat * b.mag.toNat / 128 := by
  have ha := a.mag.isLt
  have hb := b.mag.isLt
  have hab : a.mag.toNat * b.mag.toNat ≤ 127 * 127 := Nat.mul_le_mul (by omega) (by omega)
  simp only [ring, BitVec.toNat_ofNat, Nat.shiftRight_eq_div_pow]
  omega

theorem ring_neg (a b : SignMag) : (ring a b).neg = (a.neg ^^ b.neg) := rfl

theorem foldMagnitude_le (sc : Nat) : foldMagnitude sc ≤ 127 := by
  unfold foldMagnitude
  split <;> omega

theorem foldOutput_toNat (f : Nat) (neg : Bool) (h : f ≤ 127) :
    (foldOutput f neg).toNat = if neg then 128 - f else 128 + f := by
  unfold foldOutput
  rw [BitVec.toNat_ofNat]
  split <;> omega

/-- The sample of a scaled value, as a natural. -/
theorem foldScaled_toNat (sc : Nat) (neg : Bool) :
    (foldScaled sc neg).toNat =
      if foldPolarity sc neg then 128 - foldMagnitude sc else 128 + foldMagnitude sc :=
  foldOutput_toNat _ _ (foldMagnitude_le sc)

theorem fold_eq (w n : Half) (x : SignMag) :
    fold w n x = foldScaled (foldScale x.mag.toNat (foldThreshold w n x.neg)) x.neg := rfl

/-! ### The meanings do not read the inputs to come -/

/-- The result of an operation is the same whatever inputs wait, and it leaves them waiting. -/
theorem exec_stimulus (i : Instr) (s : State) (x : List PortCycle) :
    ∃ t, exec i s = .next t ∧ exec i { s with stimulus := x } = .next { t with stimulus := x } ∧
      t.stimulus = s.stimulus := by
  cases i with
  | nop => exact ⟨_, rfl, rfl, rfl⟩
  | settImm T =>
    exact ⟨_, exec_settImm T s, by rw [exec_settImm]; unfold rampSetTarget; split <;> rfl, by simp⟩
  | settGlide T d =>
    exact ⟨_, exec_settGlide T d s, by rw [exec_settGlide]; unfold rampSetTarget; split <;> rfl, by simp⟩
  | setnImm n =>
    exact ⟨_, exec_setnImm n s, by rw [exec_setnImm]; unfold rampSetTarget; split <;> rfl, by simp⟩
  | setnGlide n d =>
    exact ⟨_, exec_setnGlide n d s, by rw [exec_setnGlide]; unfold rampSetTarget; split <;> rfl, by simp⟩
  | wroff v => exact ⟨_, rfl, rfl, rfl⟩
  | wrfold v => exact ⟨_, rfl, rfl, rfl⟩
  | lkcode c => exact ⟨_, rfl, rfl, rfl⟩
  | lknote n => exact ⟨_, rfl, rfl, rfl⟩
  | rdreg r => exact ⟨_, exec_rdreg r s, rfl, by simp⟩
  | tick => exact ⟨_, exec_tick s, by rw [exec_tick]; unfold tickStep pitchStep rampAdvance; split <;> rfl, by simp⟩

end Sys2Proof.Machine
end

