-- ==== Sys2Proof/Tests/Slice0.lean ====
section
/-! SUPPORT. The model's own tests. Expected values come from the vectors and programs of 95_test_vectors.md, under the
example configuration `EX` of that file, and from the formats of 30_encoding.md; then one witness for the hypotheses
of each statement that has any. -/

namespace Sys2Proof.Tests

open Sys2Proof.Machine

/-- The example configuration `EX` of 95_test_vectors.md (not the hardware's tables), its tables as lists. -/
def EX : Params :=
  { tickHz := 1000
    pitchTable := ⟨((List.range 1024).map (fun c => BitVec.ofNat 16 (32 * c + 64))).toArray, by simp⟩
    midiTable := ⟨((List.range 61).map (fun j => BitVec.ofNat 10 (17 * j))).toArray, by simp⟩ }

theorem EX_legal : EX.Legal := by
  refine ⟨by decide, ?_, ?_⟩
  · intro c
    have hc := c.isLt
    simp [EX, BitVec.le_def]
    omega
  · intro j
    have hj := j.isLt
    have h1 : 17 * j.val % 1024 = 17 * j.val := Nat.mod_eq_of_lt (by omega)
    have h2 : 17 * (j.val + 1) % 1024 = 17 * (j.val + 1) := Nat.mod_eq_of_lt (by omega)
    simp [EX, BitVec.lt_def, h1, h2]

/-- The reset state under `EX`. -/
def exReset : State := State.resetWith EX

/-- The state of 95 section 2.3 before its set-target vectors: a glide from 1000 to 2000 after two of its four ticks. -/
def midGlide : State :=
  { exReset with rstart := 1000, rcurrent := 1500, rtarget := 2000, rtotal := 4, rremain := 2, rmode := .timedLinear }

/-- The state after one operation. -/
def after (i : Instr) (s : State) : State :=
  match exec i s with
  | .next t => t
  | .fault _ => s
  | .refused _ => s

/-- The six ramp registers: target, current, start, total, remaining, mode. -/
def rampOf (s : State) : List Nat :=
  [s.rtarget.toNat, s.rcurrent.toNat, s.rstart.toNat, s.rtotal.toNat, s.rremain.toNat, s.rmode.bits.toNat]

/-! ### Well-formedness: one ill-formed statement for each check (R85, R86) -/

theorem test_wellFormed_refuses_target : Stmt.wellFormed (.settImm 65536) = false := by decide
theorem test_wellFormed_refuses_glide_target : Stmt.wellFormed (.settGlide 65536 0) = false := by decide
theorem test_wellFormed_refuses_dur : Stmt.wellFormed (.settGlide 0 4096) = false := by decide
theorem test_wellFormed_refuses_note : Stmt.wellFormed (.setnImm 128) = false := by decide
theorem test_wellFormed_refuses_glide_note : Stmt.wellFormed (.setnGlide 128 0) = false := by decide
theorem test_wellFormed_refuses_note_dur : Stmt.wellFormed (.setnGlide 0 4096) = false := by decide
theorem test_wellFormed_refuses_offset : Stmt.wellFormed (.wroff 65536) = false := by decide
theorem test_wellFormed_refuses_fold : Stmt.wellFormed (.wrfold 2048) = false := by decide
theorem test_wellFormed_refuses_code : Stmt.wellFormed (.lkcode 1024) = false := by decide
theorem test_wellFormed_refuses_lookup_note : Stmt.wellFormed (.lknote 128) = false := by decide
theorem test_wellFormed_refuses_reg : Stmt.wellFormed (.rdreg (.num 16)) = false := by decide
theorem test_wellFormed_refuses_word : Stmt.wellFormed (.word 0x100000000) = false := by decide
theorem test_wellFormed_refuses_pseudo :
    [Stmt.sett 65536 0, .sett 0 4096, .setn 128 0, .setn 0 4096, .fold 1024 0, .fold 0 1024].map Stmt.wellFormed =
      [false, false, false, false, false, false] := by decide

/-! ### Decoding: words written out bit by bit from the formats of R71 to R78, and the table of 95 section 2.1 -/

theorem test_decode_nop : decodeCommand 0b0000_0000000000000000000000000000 = .instr .nop := by decide
theorem test_decode_settImm : decodeCommand 0b0001_000000000000_0000001111101000 = .instr (.settImm 1000) := by decide
theorem test_decode_settGlide :
    decodeCommand 0b0010_111111111110_1000000000000001 = .instr (.settGlide 0x8001 0xFFE) := by decide
theorem test_decode_setnImm : decodeCommand 0b0011_000000000000000000000_1000001 = .instr (.setnImm 65) := by decide
theorem test_decode_setnGlide :
    decodeCommand 0b0100_000011001000_000000000_1001000 = .instr (.setnGlide 72 200) := by decide
theorem test_decode_wroff : decodeCommand 0b0101_000000000000_1000000000000011 = .instr (.wroff 0x8003) := by decide
theorem test_decode_wrfold :
    decodeCommand 0b0110_00000000000000000_10000000010 = .instr (.wrfold 0x402) := by decide
theorem test_decode_lkcode :
    decodeCommand 0b0111_000000000000000000_1000000001 = .instr (.lkcode 0x201) := by decide
theorem test_decode_lknote : decodeCommand 0b1000_000000000000000000000_0111100 = .instr (.lknote 60) := by decide
theorem test_decode_rdreg : decodeCommand 0b1001_000000000000000000000000_1100 = .instr (.rdreg 12) := by decide
theorem test_decode_tick : decodeStimulus 0b1111_0000000000000000000000000000 = .instr .tick := by decide

theorem test_decode_ignores_reserved_bits :
    [0x00000001, 0x1234FFFF, 0x30000080, 0x40C80148, 0x60000800, 0x6000FFFF, 0x70000400, 0x90000010].map
        (fun w => decodeCommand w) = List.replicate 8 (.ignored .reservedBits) := by decide

theorem test_decode_ignores_reserved_opcodes :
    [0xA0000000, 0xBFFFFFFF, 0xE0000001, 0xF0000000].map (fun w => decodeCommand w) =
      List.replicate 4 (.ignored .reservedOpcode) := by decide

theorem test_decode_edges :
    [0x2FFFFFFF, 0x3000007F, 0x5000FFFF, 0x600007FF, 0x700003FF, 0x8000007F, 0x9000000F].map
        (fun w => (decodeCommand w).toOption) =
      [some (.settGlide 65535 4095), some (.setnImm 127), some (.wroff 65535), some (.wrfold 2047),
        some (.lkcode 1023), some (.lknote 127), some (.rdreg 15)] := by decide

theorem test_decodeTableWord : decodeTableWord 32 0x200407D0 = some (.settGlide 2000 4) := by decide

theorem test_wordBytes : wordBytes 0x40C80048 = [0x48, 0x00, 0xC8, 0x40] := by decide

/-! ### The assembler (R85, R86) -/

theorem test_assemble_glide :
    assembleLine ['S', 'E', 'T', 'N', '.', 'G', 'L', 'I', 'D', 'E', ' ', '7', '2', ',', ' ', '2', '0', '0', ';', 'x'] =
      some [0x40C80048] := by decide

theorem test_assemble_register_name :
    assembleLine ['R', 'D', 'R', 'E', 'G', ' ', 'R', 'T', 'O', 'T', 'A', 'L'] = some [0x9000000C] := by decide

theorem test_assemble_refuses_operand :
    assembleLine ['L', 'K', 'N', 'O', 'T', 'E', ' ', '0', 'x', '8', '0'] = none := by decide

/-! ### One step of each operation (95 sections 2.2, 2.3, 2.6 and 3) -/

theorem test_nop : after .nop midGlide = midGlide := rfl

theorem test_settImm : rampOf (after (.settImm 7) midGlide) = [7, 7, 7, 0, 0, 0] := by decide +kernel

theorem test_settGlide_starts_at_current : rampOf (after (.settGlide 0 2) midGlide) = [0, 1500, 1500, 2, 2, 1] := by
  decide +kernel

theorem test_settGlide_zero_duration : rampOf (after (.settGlide 300 0) midGlide) = [300, 300, 300, 0, 0, 0] := by
  decide +kernel

theorem test_setnImm : rampOf (after (.setnImm 60) midGlide) = [19648, 19648, 19648, 0, 0, 0] := by decide +kernel

theorem test_setnGlide : rampOf (after (.setnGlide 72 200) midGlide) = [26176, 1500, 1500, 200, 200, 1] := by
  decide +kernel

theorem test_wroff :
    (after (.wroff 65535) exReset).offmeas = 65535 ∧ (after (.wroff 65535) exReset).offcur = 0 := by decide +kernel

theorem test_wrfold_leaves_minimum :
    (after (.wrfold 132) exReset).wrap = 130 ∧ (after (.wrfold 132) exReset).negwrap = 65 := by decide +kernel

theorem test_wrfold_clamps :
    (after (.wrfold 1024) exReset).wrap = 511 ∧ (after (.wrfold 1024) exReset).negwrap = 255 := by decide +kernel

theorem test_lkcode : (after (.lkcode 1023) exReset).result = 32800 := by decide +kernel

theorem test_lknote : (after (.lknote 60) exReset).result = 19648 := by decide +kernel

theorem test_lknote_clamps :
    (after (.lknote 23) exReset).result = 64 ∧ (after (.lknote 127) exReset).result = 32704 := by decide +kernel

theorem test_rdreg_reset :
    (List.range 16).map (fun r => (readRegister exReset (BitVec.ofNat 4 r)).toNat) =
      [0, 0, 0, 0, 64, 64, 64, 64, 0, 0, 128, 64, 0, 0, 0, 0] := by decide +kernel

theorem test_rdreg_mid_glide :
    ([6, 7, 8, 9, 11, 12].map (fun r => (after (.rdreg r) midGlide).result.toNat)) = [2000, 1500, 2, 1, 1000, 4] := by
  decide +kernel

/-- 95 section 2.6: the first TICK after SETN.IMM 60. -/
theorem test_tick_middle_pitch :
    (after .tick (after (.setnImm 60) exReset)).fphase = 0x4CC0 ∧
    (after .tick (after (.setnImm 60) exReset)).out = 242 := by decide +kernel

/-- 95 section 3, P6, the third TICK of row 4: offset step, fold past one period. -/
theorem test_tick_fold_and_offset :
    let t := after .tick { exReset with lphase := 6000, offcur := 2, offmeas := 40, wrap := 364, negwrap := 182,
                                        rtarget := 3000, rcurrent := 3000, rstart := 3000 }
    t.lphase = 0x2328 ∧ t.fphase = 0x2391 ∧ t.offcur = 3 ∧ t.out = 72 := by decide +kernel

/-- 95 section 2.3: the ramps from 100 to 200 and back over three ticks, and the full span over two. -/
theorem test_interpolate :
    [interpolate 100 200 1 3, interpolate 100 200 2 3, interpolate 200 100 1 3, interpolate 200 100 2 3,
      interpolate 0 65535 1 2, interpolate 65535 0 1 3, interpolate 10 13 2 5] =
      [133, 166, 167, 134, 32767, 43690, 11] := by decide +kernel

theorem test_glideTicks :
    [glideTicks 44100 1, glideTicks 44100 2540, glideTicks 44100 4095, glideTicks 1 200, glideTicks 1 2540] =
      [45, 112014, 180590, 1, 3] := by decide

/-- 95 section 2.3: target equal to current, the first TICK ends the ramp. -/
theorem test_ramp_at_target_ends :
    (after .tick { midGlide with rtarget := 1500 }).rremain = 0 ∧
    (after .tick { midGlide with rtarget := 1500 }).rcurrent = 1500 := by decide +kernel

theorem test_psin :
    [psin 0x007F, psin 0x0080, psin 0x1234, psin 0x4080, psin 0x7FFF, psin 0x8080, psin 0xC000] =
      [⟨0, false⟩, ⟨1, false⟩, ⟨61, false⟩, ⟨126, false⟩, ⟨0, false⟩, ⟨1, true⟩, ⟨127, true⟩] := by decide

theorem test_ring :
    [ring ⟨127, false⟩ ⟨127, true⟩, ring ⟨64, true⟩ ⟨64, false⟩, ring ⟨127, true⟩ ⟨127, true⟩,
      ring ⟨100, false⟩ ⟨50, true⟩] = [⟨126, true⟩, ⟨32, true⟩, ⟨126, false⟩, ⟨39, true⟩] := by decide

theorem test_follower :
    [followerPhase 0x1234 3, followerPhase 0x8000 256, followerPhase 0xFFFF 1, followerPhase 0xFFFF 65535] =
      [0x126A, 0x0000, 0x00FE, 0xFDFF] := by decide

theorem test_offset_and_leader :
    [offsetToward 5 2, offsetToward 7 7, offsetToward 0 65535, leaderPhase 0xF000 0x2000] = [4, 7, 1, 0x1000] := by
  decide

theorem test_fold :
    [fold 64 64 ⟨126, true⟩, fold 128 64 ⟨64, false⟩, fold 128 64 ⟨126, false⟩, fold 511 255 ⟨33, false⟩,
      fold 511 255 ⟨96, false⟩, fold 511 255 ⟨126, false⟩, fold 511 255 ⟨126, true⟩, fold 130 65 ⟨51, true⟩] =
      [2, 255, 131, 121, 129, 111, 137, 77] := by decide

/-! ### Steps -/

/-- A step on a state whose next input is the cycle `c`. -/
def stepOn (c : PortCycle) (s : State) : State :=
  match step { s with stimulus := [c] } with
  | .next t => t
  | .fault _ => s
  | .refused _ => s

/-- R205: a command and a strobe in one cycle; after the command's step the TICK is still to come. -/
theorem test_step_command_first :
    (stepOn ⟨false, true, true, 0x50000003⟩ exReset).offmeas = 3 ∧
    (stepOn ⟨false, true, true, 0x50000003⟩ exReset).stimulus = [⟨false, true, false, 0x50000003⟩] := by
  decide +kernel

/-- R220: a reset cycle drops its command and strobe. -/
theorem test_step_reset :
    stepOn ⟨true, true, true, 0x50000003⟩ { midGlide with out := 7, result := 9 } = exReset := rfl

/-- R82, R83: the tick word on `cmd_word` is an ignored word. -/
theorem test_step_ignores_tick_word : stepOn ⟨false, false, true, 0xF0000000⟩ midGlide = midGlide := rfl

/-- R83: the same word presented as a stimulus word is a TICK. -/
theorem test_fetch_word_ticks :
    step (midGlide.withFetchWord 32 0xF0000000) = .next (after .tick midGlide) ∧
    (after .tick midGlide).rcurrent = 1750 := ⟨rfl, by decide +kernel⟩

/-! ### Witnesses: the hypotheses of each statement can be met -/

/-- Glides from 1000 to 2000 over four ticks, one tick in and three ticks in: states that meet the invariant. -/
def glideAt (current : Half) (remain : BitVec 32) : State :=
  { exReset with rstart := 1000, rcurrent := current, rtarget := 2000, rtotal := 4, rremain := remain,
                 rmode := .timedLinear }

theorem exReset_inv : exReset.Inv where
  params_legal := EX_legal
  thresholds := ⟨by decide, by decide, by decide⟩
  ramp := ⟨fun _ => rfl, by decide, by simp [exReset, State.resetWith], fun _ => rfl, fun h' => absurd rfl h'⟩
  follower := by simp [exReset, State.resetWith]
  sample_range := by decide

theorem glideAt_inv (current : Half) (remain : BitVec 32) (h : remain ≠ 0) (hr : remain.toNat ≤ 4)
    (hc : (current.toNat : Int) = 1000 + (1000 * (4 - (remain.toNat : Int))).tdiv 4) :
    (glideAt current remain).Inv := by
  have h4 : (4 : BitVec 32) ≠ 0 := by decide
  refine ⟨EX_legal, ⟨exReset_inv.thresholds.1, exReset_inv.thresholds.2, exReset_inv.thresholds.3⟩,
    ⟨fun h' => absurd h' h, hr, ⟨fun h' => absurd h' h4, fun h' => ?_⟩, fun h' => absurd h' h4, fun _ _ => ?_⟩,
    exReset_inv.follower, exReset_inv.sample_range⟩
  · cases h'
  · simpa [glideAt] using hc

theorem witness_EncodeInvertsDecode : decodeStimulus 0x100003E8 = .instr (.settImm 1000) := by decide

theorem witness_DecodeInvertsEncode : Instr.rdreg 15 ≠ .tick := by decide

theorem witness_EachRowDecodesItsFields :
    (0x00000000 : Word) &&& 0xFFFFFFFF = 0x00000000 ∧ (0x1000FFFF : Word) &&& 0xFFFF0000 = 0x10000000 ∧
    (0x2FFFFFFF : Word) &&& 0xF0000000 = 0x20000000 ∧ (0x3000007F : Word) &&& 0xFFFFFF80 = 0x30000000 ∧
    (0x4FFF007F : Word) &&& 0xF000FF80 = 0x40000000 ∧ (0x5000FFFF : Word) &&& 0xFFFF0000 = 0x50000000 ∧
    (0x600007FF : Word) &&& 0xFFFFF800 = 0x60000000 ∧ (0x700003FF : Word) &&& 0xFFFFFC00 = 0x70000000 ∧
    (0x8000007F : Word) &&& 0xFFFFFF80 = 0x80000000 ∧ (0x9000000F : Word) &&& 0xFFFFFFF0 = 0x90000000 := by decide

/-- A state whose next input is the command word `w`, with a strobe in the same cycle when `tick`. -/
def commandState (tick : Bool) (w : Word) : State := { exReset with stimulus := [⟨false, tick, true, w⟩, tickCycle] }

theorem witness_ReservedOpcodeIsIgnored :
    (∃ c rest, (commandState false 0xA0000000).stimulus = c :: rest ∧ c.rst = false ∧ c.cmdValid = true ∧
      0xA0000000 ≤ c.cmdWord.toNat) ∧
    ∃ c rest, (commandState true 0xFFFFFFFF).stimulus = c :: rest ∧ c.rst = false ∧ c.cmdValid = true ∧
      0xA0000000 ≤ c.cmdWord.toNat :=
  ⟨⟨_, _, rfl, rfl, rfl, by decide⟩, ⟨_, _, rfl, rfl, rfl, by decide⟩⟩

theorem witness_ReservedBitIsIgnored :
    [(0, 0x0FFFFFFF, 0x00000001), (1, 0x0FFF0000, 0x10010000), (3, 0x0FFFFF80, 0x30000080),
      (4, 0x0000FF80, 0x40008000), (5, 0x0FFF0000, 0x58000000), (6, 0x0FFFF800, 0x60000800),
      (7, 0x0FFFFC00, 0x70000400), (8, 0x0FFFFF80, 0x80000080), (9, 0x0FFFFFF0, 0x9FFFFFF0)].all
      (fun (x : Nat × Word × Word) => x.2.2.toNat / 0x10000000 == x.1 && x.2.2 &&& x.2.1 != 0) = true ∧
    (commandState true 0x00000001).stimulus = [⟨false, true, true, 0x00000001⟩, tickCycle] := by decide

theorem witness_StimulusWordsReachThePorts : ∃ w v : Word, w = 0xF0000000 ∧ v ≠ 0xF0000000 :=
  ⟨0xF0000000, 0xF0000001, rfl, by decide⟩

theorem witness_StepRunsTheDecodedCommand :
    ∃ c rest, (commandState true 0x50000003).stimulus = c :: rest ∧ c.rst = false ∧ c.cmdValid = true ∧
      decodeCommand c.cmdWord = .instr (.wroff 3) :=
  ⟨_, _, rfl, rfl, rfl, by decide⟩

theorem witness_StepRunsTheStrobedTick :
    ∃ c rest, State.stimulus { exReset with stimulus := [tickCycle, tickCycle] } = c :: rest ∧ c.rst = false ∧
      c.cmdValid = false ∧ c.tick = true :=
  ⟨_, _, rfl, rfl, rfl, rfl⟩

theorem witness_StimulusTraceRunsItsOperations :
    State.stimulus { exReset with stimulus := [commandCycle 0x3000003C, tickCycle, tickCycle] } =
      stimulusTrace ([Instr.setnImm 60, .tick].map encode) ++ [tickCycle] := by decide

theorem witness_CommandComesBeforeTheStrobe :
    ∃ c rest, (commandState true 0x50000003).stimulus = c :: rest ∧ c.rst = false ∧ c.cmdValid = true ∧
      c.tick = true ∧ decodeCommand c.cmdWord = .instr (.wroff 3) :=
  ⟨_, _, rfl, rfl, rfl, rfl, by decide⟩

theorem witness_HeldStrobeStartsOneTickPerCycle :
    tickCycle.rst = false ∧ tickCycle.cmdValid = false ∧ tickCycle.tick = true ∧
    State.stimulus { exReset with stimulus := [tickCycle, tickCycle, commandCycle 0] } =
      List.replicate 2 tickCycle ++ [commandCycle 0] := ⟨rfl, rfl, rfl, rfl⟩

theorem witness_ResetCyclesRestoreEveryRegister :
    ∃ cs rest, cs ≠ [] ∧ (∀ c ∈ cs, c.rst = true) ∧
      State.stimulus { midGlide with stimulus := [⟨true, true, true, 0x50000003⟩, ⟨true, false, false, 0⟩, tickCycle] } =
        cs ++ rest :=
  ⟨[⟨true, true, true, 0x50000003⟩, ⟨true, false, false, 0⟩], [tickCycle], by decide, by decide, rfl⟩

theorem witness_ResetCyclesRestoreEveryRegister_next :
    ∃ c d : PortCycle, c.rst = false ∧ c.cmdValid = true ∧ decodeCommand c.cmdWord = .instr (.wroff 3) ∧
      d.rst = false ∧ d.cmdValid = false ∧ d.tick = true :=
  ⟨⟨false, true, true, 0x50000003⟩, tickCycle, rfl, rfl, by decide, rfl, rfl, rfl⟩

theorem witness_WordBytesAreLittleEndian : ([0x12, 0x34, 0x56] : List Byte).length < 4 := by decide

theorem witness_IdleCycleChangesNothing :
    exReset.stimulus = [] ∧ ∃ c rest, State.stimulus { exReset with stimulus := [⟨false, false, false, 5⟩] } = c :: rest ∧
      c.rst = false ∧ c.cmdValid = false ∧ c.tick = false :=
  ⟨rfl, _, _, rfl, rfl, rfl, rfl⟩

theorem witness_NopChangesNothing :
    (0x00000001 : Word).toNat < 0x10000000 ∧ (0x00000001 : Word) ≠ 0 ∧ (0x0FFFFFFF : Word).toNat < 0x10000000 ∧
    (0x0FFFFFFF : Word) ≠ 0 := by decide

theorem witness_SettGlideStartsARamp :
    (0 : BitVec 12) = 0 ∧ (1 : BitVec 12) ≠ 0 ∧ (4095 : BitVec 12) ≠ 0 ∧ exReset.params.Legal :=
  ⟨rfl, by decide, by decide, EX_legal⟩

theorem witness_SetnGlideStartsARamp :
    (0 : BitVec 12) = 0 ∧ (1 : BitVec 12) ≠ 0 ∧ (4095 : BitVec 12) ≠ 0 ∧ midGlide.params.Legal :=
  ⟨rfl, by decide, by decide, EX_legal⟩

theorem witness_FoldThresholdValues : 0 ≤ 1 ∧ 894 ≤ 894 ∧ 131 ≤ 131 ∧ 1023 ≤ 2047 := by decide

theorem witness_LookupsReadTheTables : 1023 < 1024 ∧ 60 < 61 ∧ 24 ≤ 24 ∧ 84 ≤ 84 := by decide

theorem witness_LookupsAreMonotone : EX.Legal ∧ (1022 : BitVec 10) ≤ 1023 ∧ 23 ≤ 25 :=
  ⟨EX_legal, by decide, by decide⟩

theorem witness_TickMovesThePhases :
    ∃ s1 s2 s3 : State, s1.offcur.toNat < s1.offmeas.toNat ∧ s2.offmeas.toNat < s2.offcur.toNat ∧
      s3.offcur = s3.offmeas :=
  ⟨{ exReset with offmeas := 65535 }, { exReset with offcur := 1 }, exReset, by decide, by decide, rfl⟩

theorem witness_TickAdvancesTheRamp_idle : exReset.Inv ∧ (exReset.rremain = 0 ∨ exReset.rcurrent = exReset.rtarget) :=
  ⟨exReset_inv, .inl rfl⟩

theorem witness_TickAdvancesTheRamp_active :
    (glideAt 1250 3).Inv ∧ (glideAt 1250 3).rremain ≠ 0 ∧ (glideAt 1250 3).rcurrent ≠ (glideAt 1250 3).rtarget :=
  ⟨glideAt_inv 1250 3 (by decide) (by decide) (by decide), by decide, by decide⟩

theorem witness_TickAdvancesTheRamp_last :
    (glideAt 1750 1).Inv ∧ (glideAt 1750 1).rremain ≠ 0 ∧ (glideAt 1750 1).rcurrent ≠ (glideAt 1750 1).rtarget ∧
    (after .tick (glideAt 1750 1)).rremain = 0 :=
  ⟨glideAt_inv 1750 1 (by decide) (by decide) (by decide), by decide, by decide, by decide +kernel⟩

theorem witness_ParabolicSineFormula :
    (0x123F : Half).toNat / 128 = (0x1200 : Half).toNat / 128 ∧ (0x7FFF : Half).toNat < 32768 ∧
    32768 ≤ (0x8000 : Half).toNat := by decide

theorem witness_ParabolicSineLaws :
    ((0x8000 : Half).toNat / 32768 = (0xBFFF : Half).toNat / 32768 ∧
      (0x8000 : Half).toNat % 32768 ≤ (0xBFFF : Half).toNat % 32768 ∧ (0xBFFF : Half).toNat % 32768 < 0x4000) ∧
    ((0x4000 : Half).toNat / 32768 = (0x7FFF : Half).toNat / 32768 ∧
      (0x4000 : Half).toNat % 32768 ≤ (0x7FFF : Half).toNat % 32768 ∧ 0x4000 ≤ (0x4000 : Half).toNat % 32768) := by
  decide

theorem witness_RingModulatorLaws : (⟨0, true⟩ : SignMag).mag = 0 ∨ (⟨127, false⟩ : SignMag).mag = 0 := .inl rfl

theorem witness_WaveFolderLaws : 127 ≤ 127 := by decide

theorem witness_MinimumFoldFoldsNothing : exReset.wrap = 64 ∧ exReset.negwrap = 64 := ⟨rfl, rfl⟩

theorem witness_UnisonAndTheMidpoint :
    (after (.wrfold 133) exReset).offcur = 0 ∧ (after (.wrfold 133) exReset).offmeas = 0 ∧
    (after (.wrfold 133) exReset).wrap.toNat = 130 := by decide

theorem witness_GlideTicksBounds :
    (1 ≤ 1 ∧ 1 ≤ 1000000 ∧ 1 ≤ 1 ∧ 1 ≤ 4095) ∧ 1 ≤ 1000000 ∧ 1000000 ≤ 1000000 ∧ 1 ≤ 4095 ∧ 4095 ≤ 4095 := by decide

theorem witness_RampConverges :
    exReset.params.Legal ∧ 1 ≤ 4 ∧ 4 ≤ 4095 ∧
    (∀ i ∈ [Instr.tick, .tick, .wroff 3, .tick, .tick], isSetTarget i = false) ∧
    glideTicks exReset.params.tickHz 4 ≤ [Instr.tick, .tick, .wroff 3, .tick, .tick].count .tick :=
  ⟨EX_legal, by decide, by decide, by decide, by decide⟩

theorem witness_RampIsLinear :
    exReset.params.Legal ∧ 1 ≤ 4 ∧ 4 ≤ 4095 ∧
    (∀ i ∈ [Instr.tick, .nop] ++ [.tick, .tick, .tick], isSetTarget i = false) ∧
    [Instr.tick, .nop].count .tick + [Instr.tick, .tick, .tick].count .tick ≤ glideTicks exReset.params.tickHz 4 ∧
    exReset.rcurrent ≤ (2000 : Half) ∧ (0 : Half) ≤ exReset.rcurrent ∧ exReset.rcurrent ≠ (2000 : Half) :=
  ⟨EX_legal, by decide, by decide, by decide, by decide, by decide +kernel, by decide +kernel, by decide +kernel⟩

theorem witness_RetargetingIsContinuous :
    midGlide.params.Legal ∧ (1 : BitVec 12) ≠ 0 ∧ (4095 : BitVec 12) ≠ 0 := ⟨EX_legal, by decide, by decide⟩

theorem witness_PhaseWrapsToItsStart :
    (after (.settImm 4096) exReset).rremain = 0 ∧ 65536 ∣ 16 * (after (.settImm 4096) exReset).rcurrent.toNat :=
  ⟨rfl, by decide⟩

theorem witness_OffsetReachesTheMeasuredValue :
    ∀ i ∈ [Instr.tick, .settImm 5, .tick], ∀ v, i ≠ .wroff v := by
  intro i hi v
  rcases List.mem_cons.mp hi with rfl | hi
  · simp
  · rcases List.mem_cons.mp hi with rfl | hi
    · simp
    · rw [List.mem_singleton.mp hi]
      simp

theorem witness_EveryStepKeepsTheInvariant : (glideAt 1250 3).Inv ∧ step (glideAt 1250 3) = .next (glideAt 1250 3) :=
  ⟨glideAt_inv 1250 3 (by decide) (by decide) (by decide), rfl⟩

theorem witness_InvariantHoldsAtReset : EX.Legal := EX_legal

theorem witness_ParametersNeverChange : Sys2Proof.core.run 2 exReset = .next exReset := rfl

theorem witness_EachRegisterHasItsWriter :
    exec .tick exReset = .next (tickStep exReset) ∧ exec .nop exReset = .next exReset ∧ Instr.nop ≠ .tick ∧
    isSetTarget .nop = false ∧ (∀ v, Instr.nop ≠ .wroff v) ∧ (∀ v, Instr.nop ≠ .wrfold v) ∧
    (∀ c, Instr.nop ≠ .lkcode c) ∧ (∀ n, Instr.nop ≠ .lknote n) ∧ ∀ r, Instr.nop ≠ .rdreg r :=
  ⟨rfl, rfl, by decide, rfl, by simp, by simp, by simp, by simp, by simp⟩

theorem witness_OutChangesOnlyAtATick :
    ∃ t, step (commandState false 0x600003FF) = .next t ∧
      (commandState false 0x600003FF).event ≠ .run .tick ∧ (commandState false 0x600003FF).event ≠ .reset :=
  ⟨_, rfl, by decide, by decide⟩

theorem witness_ObservationHasOneEntryPerReading :
    (∃ t, State.event { exReset with stimulus := [tickCycle] } = .run .tick ∧
      step { exReset with stimulus := [tickCycle] } = .next t) ∧
    (∃ t, (commandState false 0x9000000A).event = .run (.rdreg 10) ∧ isReading (.rdreg 10) = true ∧
      step (commandState false 0x9000000A) = .next t) ∧
    Sys2Proof.core.run 2 exReset = .next exReset ∧
    State.stimulus { exReset with stimulus := [commandCycle 0x9000000A, tickCycle, tickCycle] } =
      stimulusTrace ([Instr.rdreg 10, .tick].map encode) ++ [tickCycle] :=
  ⟨⟨_, rfl, rfl⟩, ⟨_, by decide, rfl, rfl⟩, rfl, by decide⟩

theorem witness_ObservationHasOneEntryPerReading_none :
    (State.event { exReset with stimulus := [⟨true, true, true, 0x9000000A⟩] } = .reset) ∧
    exReset.event = .idle ∧ (commandState true 0xF0000000).event = .ignored .reservedOpcode ∧
    ((commandState true 0x50000003).event = .run (.wroff 3) ∧ isReading (.wroff 3) = false) := by decide

theorem witness_RepeatedCommandIsIdempotent :
    Instr.settGlide 2000 4 ≠ .tick ∧ exec (.settGlide 2000 4) exReset = .next (rampSetTarget 2000 4 true exReset) :=
  ⟨by decide, rfl⟩

theorem witness_LastWriteWins_pairs :
    (isReading (.lkcode 5) = true ∧ isReading (.rdreg 7) = true) ∧
    (isSetTarget (.settGlide 2000 1) = true ∧ isSetTarget (.setnGlide 60 4095) = true ∧
      isGlide (.settGlide 2000 1) = true) ∧
    isSetTarget (.settImm 7) = true ∧ isSetTarget (.settGlide 300 0) = true ∧ isGlide (.settGlide 300 0) = false := by
  decide

theorem witness_LastWriteWins_between : Instr.tick ∉ [Instr.rdreg 3, .wrfold 1023, .setnImm 60] := by decide

end Sys2Proof.Tests
end

/-! SUPPORT. Decoding the word of an operation: its reserved bits agree with its row, its operand fields read back, so
it decodes to the operation again (R71 to R81). -/

namespace Sys2Proof

/-- A mask that looks only at the upper part of a word does not see the lower part. -/
theorem append_and_append_zero {n k : Nat} (c m : BitVec n) (x : BitVec k) :
    (c ++ x) &&& (m ++ 0#k) = (c &&& m) ++ 0#k := by
  rw [BitVec.and_append, BitVec.and_zero]

theorem encode_settImm_mask (target : Half) : encode (.settImm target) &&& 0xFFFF0000 = 0x10000000 :=
  append_and_append_zero (0x1#4 ++ 0#12) 0xFFFF#16 target

theorem encode_settGlide_mask (target : Half) (dur : BitVec 12) :
    encode (.settGlide target dur) &&& 0xF0000000 = 0x20000000 := by
  have hupper : (0x2#4 ++ dur) &&& 0xF000#16 = 0x2000#16 := append_and_append_zero 0x2#4 0xF#4 dur
  calc encode (.settGlide target dur) &&& 0xF0000000
      = ((0x2#4 ++ dur) &&& 0xF000#16) ++ 0#16 := append_and_append_zero (0x2#4 ++ dur) 0xF000#16 target
    _ = 0x20000000 := by rw [hupper]; rfl

theorem encode_setnImm_mask (note : BitVec 7) : encode (.setnImm note) &&& 0xFFFFFF80 = 0x30000000 :=
  append_and_append_zero (0x3#4 ++ 0#21) 0x1FFFFFF#25 note

theorem encode_setnGlide_mask (note : BitVec 7) (dur : BitVec 12) :
    encode (.setnGlide note dur) &&& 0xF000FF80 = 0x40000000 := by
  have hupper : (0x4#4 ++ dur) &&& 0xF000#16 = 0x4000#16 := append_and_append_zero 0x4#4 0xF#4 dur
  have hmiddle : (0x4#4 ++ dur ++ 0#9) &&& (0xF000#16 ++ 0x1FF#9) = 0x4000#16 ++ 0#9 := by
    rw [BitVec.and_append, hupper, BitVec.zero_and]
  calc encode (.setnGlide note dur) &&& 0xF000FF80
      = ((0x4#4 ++ dur ++ 0#9) &&& (0xF000#16 ++ 0x1FF#9)) ++ 0#7 :=
        append_and_append_zero (0x4#4 ++ dur ++ 0#9) (0xF000#16 ++ 0x1FF#9) note
    _ = 0x40000000 := by rw [hmiddle]; rfl

theorem encode_wroff_mask (v16 : Half) : encode (.wroff v16) &&& 0xFFFF0000 = 0x50000000 :=
  append_and_append_zero (0x5#4 ++ 0#12) 0xFFFF#16 v16

theorem encode_wrfold_mask (v11 : BitVec 11) : encode (.wrfold v11) &&& 0xFFFFF800 = 0x60000000 :=
  append_and_append_zero (0x6#4 ++ 0#17) 0x1FFFFF#21 v11

theorem encode_lkcode_mask (code : BitVec 10) : encode (.lkcode code) &&& 0xFFFFFC00 = 0x70000000 :=
  append_and_append_zero (0x7#4 ++ 0#18) 0x3FFFFF#22 code

theorem encode_lknote_mask (note : BitVec 7) : encode (.lknote note) &&& 0xFFFFFF80 = 0x80000000 :=
  append_and_append_zero (0x8#4 ++ 0#21) 0x1FFFFFF#25 note

theorem encode_rdreg_mask (reg : BitVec 4) : encode (.rdreg reg) &&& 0xFFFFFFF0 = 0x90000000 :=
  append_and_append_zero (0x9#4 ++ 0#24) 0xFFFFFFF#28 reg

theorem v16Field_append (x v16 : Half) : v16Field (x ++ v16) = v16 := BitVec.extractLsb'_append_eq_right

theorem v11Field_append (x : BitVec 21) (v11 : BitVec 11) : v11Field (x ++ v11) = v11 :=
  BitVec.extractLsb'_append_eq_right

theorem codeField_append (x : BitVec 22) (code : BitVec 10) : codeField (x ++ code) = code :=
  BitVec.extractLsb'_append_eq_right

theorem noteField_append (x : BitVec 25) (note : BitVec 7) : noteField (x ++ note) = note :=
  BitVec.extractLsb'_append_eq_right

theorem regField_append (x : BitVec 28) (reg : BitVec 4) : regField (x ++ reg) = reg :=
  BitVec.extractLsb'_append_eq_right

theorem durField_encode_settGlide (target : Half) (dur : BitVec 12) :
    durField (encode (.settGlide target dur)) = dur :=
  calc durField (encode (.settGlide target dur))
      = (0x2#4 ++ dur).extractLsb' 0 12 := BitVec.extractLsb'_append_eq_of_le (by decide)
    _ = dur := BitVec.extractLsb'_append_eq_right

theorem durField_encode_setnGlide (note : BitVec 7) (dur : BitVec 12) :
    durField (encode (.setnGlide note dur)) = dur :=
  calc durField (encode (.setnGlide note dur))
      = (0x4#4 ++ dur ++ 0#9).extractLsb' 9 12 := BitVec.extractLsb'_append_eq_of_le (by decide)
    _ = (0x4#4 ++ dur).extractLsb' 0 12 := BitVec.extractLsb'_append_eq_of_le (by decide)
    _ = dur := BitVec.extractLsb'_append_eq_right

/-- The word of a command decodes on `cmd_word` to the command (R80, R81). -/
theorem decodeCommand_encode (i : Instr) (h : i ≠ .tick) : decodeCommand (encode i) = .instr i := by
  cases i with
  | nop => rw [decodeCommand_op0 _ Laws.Opcode.nop]; rfl
  | settImm target =>
    rw [decodeCommand_op1 _ (Laws.Opcode.settImm target), if_pos (encode_settImm_mask target), encode, v16Field_append]
  | settGlide target dur =>
    rw [decodeCommand_op2 _ (Laws.Opcode.settGlide target dur), if_pos (encode_settGlide_mask target dur),
      durField_encode_settGlide, encode, v16Field_append]
  | setnImm note =>
    rw [decodeCommand_op3 _ (Laws.Opcode.setnImm note), if_pos (encode_setnImm_mask note), encode, noteField_append]
  | setnGlide note dur =>
    rw [decodeCommand_op4 _ (Laws.Opcode.setnGlide note dur), if_pos (encode_setnGlide_mask note dur),
      durField_encode_setnGlide, encode, noteField_append]
  | wroff v16 =>
    rw [decodeCommand_op5 _ (Laws.Opcode.wroff v16), if_pos (encode_wroff_mask v16), encode, v16Field_append]
  | wrfold v11 =>
    rw [decodeCommand_op6 _ (Laws.Opcode.wrfold v11), if_pos (encode_wrfold_mask v11), encode, v11Field_append]
  | lkcode code =>
    rw [decodeCommand_op7 _ (Laws.Opcode.lkcode code), if_pos (encode_lkcode_mask code), encode, codeField_append]
  | lknote note =>
    rw [decodeCommand_op8 _ (Laws.Opcode.lknote note), if_pos (encode_lknote_mask note), encode, noteField_append]
  | rdreg reg =>
    rw [decodeCommand_op9 _ (Laws.Opcode.rdreg reg), if_pos (encode_rdreg_mask reg), encode, regField_append]
  | tick => exact absurd rfl h

/-- On `cmd_word` the tick word has a reserved `op` (R82, R83). -/
theorem decodeCommand_tickWord : decodeCommand tickWord = .ignored .reservedOpcode :=
  decodeCommand_reserved tickWord (by decide)

/-- Only a TICK has the tick word for its stimulus word (R83). -/
theorem encode_ne_tickWord (i : Instr) (h : i ≠ .tick) : encode i ≠ tickWord := by
  intro he
  have hd : decodeCommand tickWord = .instr i := he ▸ decodeCommand_encode i h
  rw [decodeCommand_tickWord] at hd
  cases hd

end Sys2Proof

/-! SUPPORT. Steps and runs: every step completes (R200), and a stimulus trace presents its operations one a step
(R83). -/

namespace Sys2Proof.Machine

/-- Every operation completes (R200). -/
theorem exec_completes (i : Instr) (s : State) : Completes (exec i s) := by
  obtain ⟨t, ht, -, -⟩ := exec_stimulus i s s.stimulus
  exact ⟨t, ht⟩

/-- An operation leaves the inputs that wait as they are. -/
theorem exec_keeps_stimulus (i : Instr) (s t : State) (h : exec i s = .next t) : t.stimulus = s.stimulus := by
  obtain ⟨u, hu, -, hstim⟩ := exec_stimulus i s s.stimulus
  rw [hu] at h
  cases h
  exact hstim

/-- Every step completes (R200). -/
theorem step_completes (s : State) : Completes (step s) := by
  cases he : s.event with
  | idle => exact ⟨_, step_of_idle s he⟩
  | reset => exact ⟨_, step_of_reset s he⟩
  | ignored why => exact ⟨_, step_of_ignored s why he⟩
  | run i => exact step_of_run s i he ▸ exec_completes i (takeInput s)

/-- The cycle of an operation's stimulus word runs that operation and nothing else (R83). -/
theorem nextEvent_stimulusCycle_encode (i : Instr) (rest : List PortCycle) :
    nextEvent (stimulusCycle (encode i) :: rest) = (.run i, rest) := by
  by_cases h : i = .tick
  · subst h
    rfl
  · rw [stimulusCycle, if_neg (encode_ne_tickWord i h), nextEvent_command _ _ rfl rfl]
    simp [commandCycle, decodeCommand_encode i h, decodedEvent, afterCommand]

/-- The first step of a trace of operations performs its first operation and leaves the rest of the trace. -/
theorem step_of_stimulusTrace_cons (i : Instr) (is : List Instr) (s : State) (rest : List PortCycle)
    (h : s.stimulus = stimulusTrace ((i :: is).map encode) ++ rest) :
    s.event = .run i ∧ ∃ t, step s = .next t ∧ t.stimulus = stimulusTrace (is.map encode) ++ rest := by
  have hnext : nextEvent s.stimulus = (.run i, stimulusTrace (is.map encode) ++ rest) :=
    h ▸ nextEvent_stimulusCycle_encode i (stimulusTrace (is.map encode) ++ rest)
  have hevent : s.event = .run i := congrArg Prod.fst hnext
  obtain ⟨t, ht⟩ := exec_completes i (takeInput s)
  refine ⟨hevent, t, (step_of_run s i hevent).trans ht, ?_⟩
  rw [exec_keeps_stimulus i (takeInput s) t ht]
  exact congrArg Prod.snd hnext

end Sys2Proof.Machine

/-! SUPPORT. What an operation, a step and a run add to the observation (R11). -/

namespace Sys2Proof.Machine

/-! ### One operation -/

theorem observeInstr_of_isReading (i : Instr) (t : State) (h : isReading i = true) :
    observeInstr i t = [.result t.result] := by
  cases i with
  | lkcode => rfl
  | lknote => rfl
  | rdreg => rfl
  | _ => simp [isReading] at h

theorem observeInstr_of_silent (i : Instr) (t : State) (htick : i ≠ .tick) (hread : isReading i = false) :
    observeInstr i t = [] := by
  cases i with
  | tick => exact absurd rfl htick
  | lkcode => simp [isReading] at hread
  | lknote => simp [isReading] at hread
  | rdreg => simp [isReading] at hread
  | _ => rfl

/-- An operation is observed once when it is a TICK or a reading, and not at all otherwise. -/
theorem observeInstr_length (i : Instr) (t : State) :
    (observeInstr i t).length = [i].count .tick + [i].countP isReading := by
  cases i <;> rfl

/-- An operation gives one sample when it is a TICK, and none otherwise. -/
theorem observeInstr_samples_length (i : Instr) (t : State) :
    ((observeInstr i t).filterMap Observation.sampleValue).length = [i].count .tick := by
  cases i <;> rfl

/-! ### One step -/

theorem observations_zero (s : State) : observations 0 s = [] := rfl

/-- The observation of a step stands before that of the steps after it. -/
theorem observations_succ (n : Nat) (s t : State) (h : step s = .next t) :
    observations (n + 1) s = observeEvent s.event t ++ observations n t := by
  rw [observations, h]

theorem observations_one (s t : State) (h : step s = .next t) : observations 1 s = observeEvent s.event t := by
  rw [observations_succ 0 s t h, observations_zero, List.append_nil]

/-- A TICK is observed by its sample. -/
theorem observations_one_of_tick (s t : State) (he : s.event = .run .tick) (h : step s = .next t) :
    observations 1 s = [.sample t.out] := by
  rw [observations_one s t h, he]
  rfl

/-- A reading is observed by its result. -/
theorem observations_one_of_reading (s t : State) (i : Instr) (he : s.event = .run i) (hi : isReading i = true)
    (h : step s = .next t) : observations 1 s = [.result t.result] := by
  rw [observations_one s t h, he]
  exact observeInstr_of_isReading i t hi

/-- A step that is neither a TICK nor a reading is not observed. -/
theorem observations_one_of_silent (s : State) (htick : s.event ≠ .run .tick)
    (hread : ∀ i, s.event = .run i → isReading i = false) : observations 1 s = [] := by
  obtain ⟨t, ht⟩ := step_completes s
  rw [observations_one s t ht]
  cases he : s.event with
  | idle => rfl
  | reset => rfl
  | ignored why => rfl
  | run i => exact observeInstr_of_silent i t (fun hi => htick (hi ▸ he)) (hread i he)

/-! ### A run -/

/-- The observation of a run is that of its first part, then that of the rest. -/
theorem observations_add (m n : Nat) (s t : State) (h : Sys2Proof.core.run m s = .next t) :
    observations (m + n) s = observations m s ++ observations n t := by
  induction m generalizing s with
  | zero =>
    cases h
    rw [Nat.zero_add, observations_zero, List.nil_append]
  | succ m ih =>
    obtain ⟨u, hu⟩ := step_completes s
    have hrest : Sys2Proof.core.run m u = .next t := run_succ_of_next m s u hu ▸ h
    rw [Nat.succ_add, observations_succ _ s u hu, observations_succ _ s u hu, ih u hrest, List.append_assoc]

/-- The first operation of a trace of operations is observed before the others. -/
theorem observations_of_stimulusTrace_cons (i : Instr) (is : List Instr) (s : State) (rest : List PortCycle)
    (h : s.stimulus = stimulusTrace ((i :: is).map encode) ++ rest) :
    ∃ t, t.stimulus = stimulusTrace (is.map encode) ++ rest ∧
      observations (i :: is).length s = observeInstr i t ++ observations is.length t := by
  obtain ⟨hevent, t, hstep, hstim⟩ := step_of_stimulusTrace_cons i is s rest h
  refine ⟨t, hstim, ?_⟩
  rw [List.length_cons, observations_succ is.length s t hstep, hevent]
  rfl

/-- A trace of operations gives one sample for each TICK in it. -/
theorem samples_length_of_stimulusTrace (is : List Instr) (s : State) (rest : List PortCycle)
    (h : s.stimulus = stimulusTrace (is.map encode) ++ rest) : (samples is.length s).length = is.count .tick := by
  induction is generalizing s with
  | nil => rfl
  | cons i is ih =>
    obtain ⟨t, hstim, hobs⟩ := observations_of_stimulusTrace_cons i is s rest h
    calc (samples (i :: is).length s).length
        = ((observeInstr i t).filterMap Observation.sampleValue).length + (samples is.length t).length := by
          rw [samples, hobs, List.filterMap_append, List.length_append, samples]
      _ = [i].count .tick + is.count .tick := by rw [observeInstr_samples_length, ih t hstim]
      _ = (i :: is).count .tick := List.count_append.symm

/-- A trace of operations is observed once for each TICK and each reading in it. -/
theorem observations_length_of_stimulusTrace (is : List Instr) (s : State) (rest : List PortCycle)
    (h : s.stimulus = stimulusTrace (is.map encode) ++ rest) :
    (observations is.length s).length = is.count .tick + is.countP isReading := by
  induction is generalizing s with
  | nil => rfl
  | cons i is ih =>
    obtain ⟨t, hstim, hobs⟩ := observations_of_stimulusTrace_cons i is s rest h
    have hcount : (i :: is).count .tick = [i].count .tick + is.count .tick := List.count_append (l₁ := [i])
    have hcountP : (i :: is).countP isReading = [i].countP isReading + is.countP isReading :=
      List.countP_append (l₁ := [i])
    rw [hobs, List.length_append, observeInstr_length, ih t hstim, hcount, hcountP]
    omega

/-- Settles O60: the observation of one step by its event, of a run by its two parts, of a trace by induction on its
operations. -/
theorem observationHasOneEntryPerReading : Obligations.ObservationHasOneEntryPerReading :=
  ⟨observations_one_of_tick,
    fun s t i => observations_one_of_reading s t i,
    observations_one_of_silent,
    observations_add,
    fun is s rest h =>
      ⟨samples_length_of_stimulusTrace is s rest h, observations_length_of_stimulusTrace is s rest h⟩⟩

end Sys2Proof.Machine

/-! SUPPORT. The invariant of the block (R22, R33, R34, R43, R168): what each register update makes of each of its
parts. -/

namespace Sys2Proof.Machine

/-! ### Frames: registers a part of the invariant does not speak of -/

/-- The threshold invariant speaks of the two thresholds alone. -/
theorem State.ThresholdsOk.congr {s t : State} (h : s.ThresholdsOk) (hwrap : t.wrap = s.wrap)
    (hnegwrap : t.negwrap = s.negwrap) : t.ThresholdsOk where
  wrap_range := hwrap ▸ h.wrap_range
  negwrap_range := hnegwrap ▸ h.negwrap_range
  negwrap_eq := by rw [hwrap, hnegwrap, h.negwrap_eq]

/-- The ramp invariant speaks of the six ramp registers alone. -/
theorem State.RampOk.congr {s t : State} (h : s.RampOk) (htarget : t.rtarget = s.rtarget)
    (hcurrent : t.rcurrent = s.rcurrent) (hremain : t.rremain = s.rremain) (hmode : t.rmode = s.rmode)
    (hstart : t.rstart = s.rstart) (htotal : t.rtotal = s.rtotal) : t.RampOk where
  idle_at_target := by rw [hremain, hcurrent, htarget]; exact h.idle_at_target
  remain_le_total := by rw [hremain, htotal]; exact h.remain_le_total
  total_zero_iff := by rw [htotal, hmode]; exact h.total_zero_iff
  start_at_target := by rw [htotal, hstart, htarget]; exact h.start_at_target
  on_line := by rw [htotal, hremain, hcurrent, hstart, htarget]; exact h.on_line

/-- The invariant speaks neither of `OFFMEAS` nor of `RESULT` nor of the inputs to come. -/
theorem State.Inv.update_unconstrained {s : State} (h : s.Inv) (v : Half) (r : BitVec 32) (x : List PortCycle) :
    State.Inv { s with offmeas := v, result := r, stimulus := x } where
  params_legal := h.params_legal
  thresholds := h.thresholds.congr rfl rfl
  ramp := h.ramp.congr rfl rfl rfl rfl rfl rfl
  follower := h.follower
  sample_range := h.sample_range

/-! ### Thresholds (R34, R160) -/

theorem foldWrap_range (v : Nat) : 64 ≤ foldWrap v ∧ foldWrap v ≤ 511 := by
  unfold foldWrap
  omega

theorem foldNegwrap_range (v : Nat) : 64 ≤ foldNegwrap v ∧ foldNegwrap v ≤ 255 := by
  have hwrap := foldWrap_range v
  unfold foldNegwrap
  omega

/-- The two thresholds of a fold amount meet R34 (R160). -/
theorem writeThresholds_thresholdsOk (v : Nat) (s : State) :
    (writeThresholds (BitVec.ofNat 16 (foldWrap v)) (BitVec.ofNat 16 (foldNegwrap v)) s).ThresholdsOk := by
  have hwrap := foldWrap_range v
  have hneg := foldNegwrap_range v
  have hwrapNat : (BitVec.ofNat 16 (foldWrap v)).toNat = foldWrap v := by bv_omega
  have hnegNat : (BitVec.ofNat 16 (foldNegwrap v)).toNat = foldNegwrap v := by bv_omega
  constructor
  · rwa [writeThresholds_wrap, hwrapNat]
  · rwa [writeThresholds_negwrap, hnegNat]
  · rw [writeThresholds_wrap, writeThresholds_negwrap, hwrapNat, hnegNat, foldNegwrap]

/-! ### The ramp (R33, R43, R120 to R122, R128) -/

/-- The length of a glide lies in 1..4 095 000 (R121). -/
theorem glideTicks_range (hz D : Nat) (hhz : 1 ≤ hz ∧ hz ≤ 1000000) (hD : 1 ≤ D ∧ D ≤ 4095) :
    1 ≤ glideTicks hz D ∧ glideTicks hz D ≤ 4095000 := by
  have hlow : 1 * 1 ≤ D * hz := Nat.mul_le_mul hD.1 hhz.1
  have hhigh : D * hz ≤ 4095 * 1000000 := Nat.mul_le_mul hD.2 hhz.2
  unfold glideTicks ceilDiv
  omega

/-- The end of the line is its target (R122). -/
theorem interpolate_end (S T : Half) (N : Nat) (hN : N ≠ 0) : interpolate S T N N = T := by
  obtain ⟨hpoint, -, -⟩ := interpolate_toNat S T N N (by omega) le_rfl hN
  rw [Int.mul_tdiv_cancel _ (by omega : (N : Int) ≠ 0)] at hpoint
  exact BitVec.eq_of_toNat_eq (by omega)

/-- Every set-target leaves a ramp that meets the ramp invariant, whatever ramp it replaces: it is at its target, or at
the start of a line of `glideTicks(D)` ticks (R120). -/
theorem rampSetTarget_rampOk (T : Half) (D : Nat) (g : Bool) (s : State) (hlegal : s.params.Legal) (hD : D ≤ 4095) :
    (rampSetTarget T D g s).RampOk := by
  by_cases himm : g = false ∨ D = 0
  · rw [rampSetTarget_immediate T D g s himm]
    exact ⟨fun _ => rfl, le_rfl, iff_of_true rfl rfl, fun _ => rfl, fun h => absurd rfl h⟩
  · obtain ⟨hg, hD0⟩ := not_or.mp himm
    obtain rfl : g = true := Bool.eq_true_of_not_eq_false hg
    have hrange := glideTicks_range s.params.tickHz D hlegal.1 (by omega)
    have hne : BitVec.ofNat 32 (glideTicks s.params.tickHz D) ≠ 0 := by bv_omega
    rw [rampSetTarget_glide T D s hD0]
    exact ⟨fun h => absurd h hne, le_rfl, iff_of_false hne (by simp), fun h => absurd h hne, fun _ _ => by simp⟩

/-- A ramp advance keeps the ramp invariant: an ended ramp is at its target, and an active one moves to the next point
of its line, which is the target at the last tick (R122). -/
theorem rampAdvance_rampOk (s : State) (h : s.RampOk) : (rampAdvance s).RampOk := by
  by_cases hidle : s.rremain = 0 ∨ s.rcurrent = s.rtarget
  · rw [rampAdvance_idle s hidle]
    exact ⟨fun _ => hidle.elim h.idle_at_target id, Nat.zero_le _, h.total_zero_iff, h.start_at_target,
      fun _ hremain => absurd rfl hremain⟩
  · obtain ⟨hremain, hcurrent⟩ := not_or.mp hidle
    have hle := h.remain_le_total
    have hpred := remain_pred_toNat s hremain
    have hremainNat : s.rremain.toNat ≠ 0 := fun h0 => hremain (BitVec.eq_of_toNat_eq h0)
    rw [rampAdvance_active s hremain hcurrent]
    refine ⟨fun (hlast : s.rremain - 1 = 0) => ?_, (by omega : (s.rremain - 1).toNat ≤ s.rtotal.toNat),
      h.total_zero_iff, h.start_at_target, fun _ _ => ?_⟩
    · have hzero : (s.rremain - 1).toNat = 0 := congrArg BitVec.toNat hlast
      have hpoint : (s.rtotal.toNat : Int) - (s.rremain - 1).toNat = s.rtotal.toNat := by omega
      exact (congrArg (interpolate _ _ · _) hpoint).trans (interpolate_end _ _ _ (by omega))
    · exact (interpolate_toNat _ _ _ _ (by omega) (by omega) (by omega)).1

/-! ### Follower and sample (R22, R143, R168) -/

/-- The follower phase is the leader phase times `(256 + OFFCUR) / 256` (R143(a)). -/
theorem followerPhase_ratio (l o : Half) : (followerPhase l o).toNat = (l.toNat * (256 + o.toNat) / 256) % 65536 := by
  rw [followerPhase_toNat, Nat.mul_add, Nat.add_comm (l.toNat * 256), Nat.add_mul_div_right _ _ (by decide),
    Nat.add_comm]

/-- The wave folder never answers 0 (R168(b)). -/
theorem one_le_fold (w n : Half) (x : SignMag) : 1 ≤ (fold w n x).toNat := by
  have hmag := foldMagnitude_le (foldScale x.mag.toNat (foldThreshold w n x.neg))
  rw [fold_eq, foldScaled_toNat]
  split <;> omega

/-! ### The invariant -/

/-- A reset state of legal parameters meets the invariant (R33, R34, R40). -/
theorem resetWith_inv (p : Params) (h : p.Legal) : (State.resetWith p).Inv where
  params_legal := h
  thresholds := ⟨by simp [State.resetWith], by simp [State.resetWith], by simp [State.resetWith]⟩
  ramp := ⟨fun _ => rfl, le_rfl, iff_of_true rfl rfl, fun _ => rfl, fun h => absurd rfl h⟩
  follower := by simp [State.resetWith]
  sample_range := by simp [State.resetWith]

theorem resetRegisters_inv (s : State) (h : s.Inv) : (resetRegisters s).Inv :=
  (resetWith_inv s.params h.params_legal).update_unconstrained _ _ _

theorem takeInput_inv (s : State) (h : s.Inv) : (takeInput s).Inv := h.update_unconstrained _ _ _

theorem writeOffmeas_inv (v : Half) (s : State) (h : s.Inv) : (writeOffmeas v s).Inv := h.update_unconstrained _ _ _

theorem writeResult_inv (v : BitVec 32) (s : State) (h : s.Inv) : (writeResult v s).Inv :=
  h.update_unconstrained _ _ _

theorem writeThresholds_inv (v : Nat) (s : State) (h : s.Inv) :
    (writeThresholds (BitVec.ofNat 16 (foldWrap v)) (BitVec.ofNat 16 (foldNegwrap v)) s).Inv where
  params_legal := h.params_legal
  thresholds := writeThresholds_thresholdsOk v s
  ramp := h.ramp.congr rfl rfl rfl rfl rfl rfl
  follower := h.follower
  sample_range := h.sample_range

theorem rampSetTarget_inv (T : Half) (D : Nat) (g : Bool) (s : State) (h : s.Inv) (hD : D ≤ 4095) :
    (rampSetTarget T D g s).Inv where
  params_legal := by rw [rampSetTarget_params]; exact h.params_legal
  thresholds := h.thresholds.congr (by simp) (by simp)
  ramp := rampSetTarget_rampOk T D g s h.params_legal hD
  follower := by simpa using h.follower
  sample_range := by simpa using h.sample_range

theorem tickStep_inv (s : State) (h : s.Inv) : (tickStep s).Inv where
  params_legal := by rw [tickStep_params]; exact h.params_legal
  thresholds := h.thresholds.congr (by simp) (by simp)
  ramp := (rampAdvance_rampOk s h.ramp).congr (by simp) (by simp) (by simp) (by simp) (by simp) (by simp)
  follower := by rw [tickStep_fphase]; exact followerPhase_ratio _ _
  sample_range := by rw [tickStep_out]; exact one_le_fold _ _ _

/-- Every operation keeps the invariant. -/
theorem exec_inv (i : Instr) (s t : State) (h : s.Inv) (hexec : exec i s = .next t) : t.Inv := by
  cases i with
  | nop => cases hexec; exact h
  | settImm T => cases hexec; exact rampSetTarget_inv _ _ _ s h (by decide)
  | settGlide T d => cases hexec; exact rampSetTarget_inv _ _ _ s h (by omega)
  | setnImm n => cases hexec; exact rampSetTarget_inv _ _ _ s h (by decide)
  | setnGlide n d => cases hexec; exact rampSetTarget_inv _ _ _ s h (by omega)
  | wroff v => cases hexec; exact writeOffmeas_inv _ s h
  | wrfold v => cases hexec; exact writeThresholds_inv _ s h
  | lkcode c => cases hexec; exact writeResult_inv _ s h
  | lknote n => cases hexec; exact writeResult_inv _ s h
  | rdreg r => cases hexec; exact writeResult_inv _ s h
  | tick => cases hexec; exact tickStep_inv s h

/-- Settles O52: what a step can do, and that each of it keeps the invariant. -/
theorem everyStepKeepsTheInvariant : Obligations.EveryStepKeepsTheInvariant := by
  intro s t h hstep
  rcases step_cases s t hstep with ⟨-, rfl⟩ | ⟨-, rfl⟩ | ⟨i, -, hexec⟩
  · exact takeInput_inv s h
  · exact resetRegisters_inv _ (takeInput_inv s h)
  · exact exec_inv i _ t (takeInput_inv s h) hexec

/-- Settles O53, from the reset state of any legal parameters. -/
theorem invariantHoldsAtReset : Obligations.InvariantHoldsAtReset :=
  ⟨resetWith_inv _ Config.params.property, resetWith_inv⟩

end Sys2Proof.Machine

/-! SUPPORT. The registers one by one: their reset values (R40), their read-back (R38, R183), and who writes them
(R39). -/

namespace Sys2Proof.Machine

/-! ### Reset values (R40) -/

/-- The lowest note reads the first entry of `MIDI_TABLE` (R101). -/
theorem lookupByMidiNote_zero (p : Params) : lookupByMidiNote p 0 = p.pitchTable[(p.midiTable[0]).toNat] := by
  have hindex : noteIndex 0 = 0 := rfl
  have hcode : (MT p 0).setWidth 10 = p.midiTable[0] := BitVec.setWidth_setWidth_of_le _ (by decide)
  simp only [lookupByMidiNote, hindex, hcode, lookupByCode, PT]

/-- Settles O20: the pitch registers by the lookup of note 0, every other register by its reset value. -/
theorem resetValuesAreTheTable : Obligations.ResetValuesAreTheTable :=
  ⟨fun p => ⟨rfl, rfl, rfl, rfl, rfl, rfl, lookupByMidiNote_zero p, lookupByMidiNote_zero p, rfl,
    lookupByMidiNote_zero p, rfl, rfl, rfl, rfl, rfl⟩, rfl, Config.params.property⟩

/-! ### Read-back (R38, R183) -/

theorem RampMode.bits_toNat (m : RampMode) : m.bits.toNat = if m = .timedLinear then 1 else 0 := by
  cases m <;> rfl

/-- The register numbers of R38, in their order. -/
theorem readRegister_toNat (s : State) (reg : BitVec 4) :
    [s.lphase.toNat, s.fphase.toNat, s.offcur.toNat, s.offmeas.toNat, s.wrap.toNat, s.negwrap.toNat, s.rtarget.toNat,
      s.rcurrent.toNat, s.rremain.toNat, if s.rmode = .timedLinear then 1 else 0, s.out.toNat, s.rstart.toNat,
      s.rtotal.toNat, 0, 0, 0][reg.toNat]? = some (readRegister s reg).toNat := by
  have hreg := reg.isLt
  unfold readRegister
  generalize reg.toNat = k at hreg
  interval_cases k <;> simp [RampMode.bits_toNat, -BitVec.toNat_setWidth, BitVec.toNat_setWidth_of_le]

/-- Settles O34: RDREG writes the value of the numbered register. -/
theorem rdregReadsTheRegister : Obligations.RdregReadsTheRegister :=
  fun reg s => ⟨readRegister s reg, exec_rdreg reg s, readRegister_toNat s reg⟩

/-! ### Single-writer ownership (R39), register by register -/

section
variable {i : Instr} {s t : State}

theorem tick_keeps_command_registers (h : exec .tick s = .next t) :
    t.offmeas = s.offmeas ∧ t.wrap = s.wrap ∧ t.negwrap = s.negwrap ∧ t.rtarget = s.rtarget ∧ t.rmode = s.rmode ∧
      t.rstart = s.rstart ∧ t.rtotal = s.rtotal ∧ t.result = s.result := by
  cases h
  simp

theorem command_keeps_tick_registers (h : exec i s = .next t) (hi : i ≠ .tick) :
    t.lphase = s.lphase ∧ t.fphase = s.fphase ∧ t.offcur = s.offcur ∧ t.out = s.out := by
  cases i with
  | tick => exact absurd rfl hi
  | _ => cases h; simp

/-- Only a set-target writes `RTARGET`, `RMODE`, `RSTART` and `RTOTAL`. -/
theorem exec_keeps_ramp_line (h : exec i s = .next t) (hi : isSetTarget i = false) :
    t.rtarget = s.rtarget ∧ t.rmode = s.rmode ∧ t.rstart = s.rstart ∧ t.rtotal = s.rtotal := by
  cases i with
  | settImm | settGlide | setnImm | setnGlide => cases hi
  | _ => cases h; simp

/-- Only a TICK and a set-target write `RCURRENT` and `RREMAIN`. -/
theorem exec_keeps_ramp_point (h : exec i s = .next t) (htick : i ≠ .tick) (hi : isSetTarget i = false) :
    t.rcurrent = s.rcurrent ∧ t.rremain = s.rremain := by
  cases i with
  | tick => exact absurd rfl htick
  | settImm | settGlide | setnImm | setnGlide => cases hi
  | _ => cases h; simp

theorem exec_keeps_offmeas (h : exec i s = .next t) (hi : ∀ v, i ≠ .wroff v) : t.offmeas = s.offmeas := by
  cases i with
  | wroff v => exact absurd rfl (hi v)
  | _ => cases h; simp

theorem exec_keeps_thresholds (h : exec i s = .next t) (hi : ∀ v, i ≠ .wrfold v) :
    t.wrap = s.wrap ∧ t.negwrap = s.negwrap := by
  cases i with
  | wrfold v => exact absurd rfl (hi v)
  | _ => cases h; simp

/-- Only the readings write `RESULT`. -/
theorem exec_keeps_result (h : exec i s = .next t) (hcode : ∀ c, i ≠ .lkcode c) (hnote : ∀ n, i ≠ .lknote n)
    (hreg : ∀ r, i ≠ .rdreg r) : t.result = s.result := by
  cases i with
  | lkcode c => exact absurd rfl (hcode c)
  | lknote n => exact absurd rfl (hnote n)
  | rdreg r => exact absurd rfl (hreg r)
  | _ => cases h; simp

end

/-- Settles O55, from what each operation keeps of each group of registers. -/
theorem eachRegisterHasItsWriter : Obligations.EachRegisterHasItsWriter := fun _ _ _ h =>
  ⟨fun htick => tick_keeps_command_registers (htick ▸ h), command_keeps_tick_registers h, exec_keeps_ramp_point h,
    exec_keeps_ramp_line h, exec_keeps_offmeas h, exec_keeps_thresholds h, exec_keeps_result h⟩

end Sys2Proof.Machine

/-! SUPPORT. Noninterference: `RESULT` and `RMODE` reach no other register, and so no sample (R30, R180). -/

namespace Sys2Proof.Machine

/-- The state with other values in `RMODE`, which no rule reads but RDREG's, and `RESULT`, which none reads (R30, R32). -/
def State.withUnread (s : State) (m : RampMode) (r : BitVec 32) : State := { s with rmode := m, result := r }

/-- A set-target writes `RMODE` without reading it. -/
theorem rampSetTarget_withUnread (T : Half) (D : Nat) (g : Bool) (s : State) (m : RampMode) (r : BitVec 32) :
    rampSetTarget T D g (s.withUnread m r) =
      (rampSetTarget T D g s).withUnread (rampSetTarget T D g s).rmode r := by
  unfold rampSetTarget
  split <;> rfl

theorem rampAdvance_withUnread (s : State) (m : RampMode) (r : BitVec 32) :
    rampAdvance (s.withUnread m r) = (rampAdvance s).withUnread m r := by
  by_cases hidle : s.rremain = 0 ∨ s.rcurrent = s.rtarget
  · rw [rampAdvance_idle s hidle, rampAdvance_idle (s.withUnread m r) hidle]
    rfl
  · obtain ⟨hremain, hcurrent⟩ := not_or.mp hidle
    rw [rampAdvance_active s hremain hcurrent, rampAdvance_active (s.withUnread m r) hremain hcurrent]
    rfl

/-- A TICK neither reads nor writes the two registers. -/
theorem tickStep_withUnread (s : State) (m : RampMode) (r : BitVec 32) :
    tickStep (s.withUnread m r) = (tickStep s).withUnread m r := by
  rw [tickStep, pitchStep, rampAdvance_withUnread]
  rfl

/-- The two registers reach nothing but themselves in an operation. -/
theorem exec_withUnread (i : Instr) (s t : State) (m : RampMode) (r : BitVec 32) (h : exec i s = .next t) :
    ∃ m' r', exec i (s.withUnread m r) = .next (t.withUnread m' r') := by
  cases i with
  | settImm T => cases h; exact ⟨_, _, congrArg Host.Outcome.next (rampSetTarget_withUnread T 0 false s m r)⟩
  | settGlide T d => cases h; exact ⟨_, _, congrArg Host.Outcome.next (rampSetTarget_withUnread T d.toNat true s m r)⟩
  | setnImm n => cases h; exact ⟨_, _, congrArg Host.Outcome.next (rampSetTarget_withUnread _ 0 false s m r)⟩
  | setnGlide n d => cases h; exact ⟨_, _, congrArg Host.Outcome.next (rampSetTarget_withUnread _ d.toNat true s m r)⟩
  | tick => cases h; exact ⟨_, _, congrArg Host.Outcome.next (tickStep_withUnread s m r)⟩
  | _ => cases h; exact ⟨_, _, rfl⟩

/-- The two registers reach nothing but themselves in a step. -/
theorem step_withUnread (s t : State) (m : RampMode) (r : BitVec 32) (h : step s = .next t) :
    ∃ m' r', step (s.withUnread m r) = .next (t.withUnread m' r') := by
  rcases step_cases s t h with ⟨he | ⟨why, he⟩, rfl⟩ | ⟨he, rfl⟩ | ⟨i, he, hexec⟩
  · exact ⟨m, r, step_of_idle (s.withUnread m r) he⟩
  · exact ⟨m, r, step_of_ignored (s.withUnread m r) why he⟩
  · exact ⟨.immediate, 0, step_of_reset (s.withUnread m r) he⟩
  · obtain ⟨m', r', hexec'⟩ := exec_withUnread i (takeInput s) t m r hexec
    exact ⟨m', r', (step_of_run (s.withUnread m r) i he).trans hexec'⟩

/-- The samples an event leaves do not show the two registers. -/
theorem observeEvent_withUnread_samples (e : Event) (t : State) (m : RampMode) (r : BitVec 32) :
    (observeEvent e (t.withUnread m r)).filterMap Observation.sampleValue =
      (observeEvent e t).filterMap Observation.sampleValue := by
  cases e with
  | run i => cases i <;> rfl
  | _ => rfl

/-- The sample of a step stands before those of the steps after it. -/
theorem samples_succ (n : Nat) (s t : State) (h : step s = .next t) :
    samples (n + 1) s = (observeEvent s.event t).filterMap Observation.sampleValue ++ samples n t := by
  rw [samples, observations_succ n s t h, List.filterMap_append, samples]

/-- Settles O59, by induction on the length of the run, for all values of the two registers. -/
theorem samplesIgnoreResultAndMode : Obligations.SamplesIgnoreResultAndMode := by
  intro n
  induction n with
  | zero => exact fun _ _ _ => rfl
  | succ n ih =>
    intro s m r
    obtain ⟨t, ht⟩ := step_completes s
    obtain ⟨m', r', ht'⟩ := step_withUnread s t m r ht
    calc samples (n + 1) (s.withUnread m r)
        = (observeEvent s.event (t.withUnread m' r')).filterMap Observation.sampleValue ++
            samples n (t.withUnread m' r') := samples_succ n _ _ ht'
      _ = (observeEvent s.event t).filterMap Observation.sampleValue ++ samples n t :=
          congrArg₂ _ (observeEvent_withUnread_samples s.event t m' r') (ih t m' r')
      _ = samples (n + 1) s := (samples_succ n s t ht).symm

end Sys2Proof.Machine

/-! SUPPORT. The byte order of a word on a byte-wide link (R52). -/

namespace Sys2Proof

/-- The bytes of a word put together from four are those four, the lowest first. -/
theorem wordBytes_append (b0 b1 b2 b3 : Byte) : wordBytes (b3 ++ b2 ++ b1 ++ b0) = [b0, b1, b2, b3] := by
  have h0 : (b3 ++ b2 ++ b1 ++ b0).extractLsb' 0 8 = b0 := BitVec.extractLsb'_append_eq_right
  have h1 : (b3 ++ b2 ++ b1 ++ b0).extractLsb' 8 8 = b1 :=
    calc (b3 ++ b2 ++ b1 ++ b0).extractLsb' 8 8
        = (b3 ++ b2 ++ b1).extractLsb' 0 8 := BitVec.extractLsb'_append_eq_of_le (by decide)
      _ = b1 := BitVec.extractLsb'_append_eq_right
  have h2 : (b3 ++ b2 ++ b1 ++ b0).extractLsb' 16 8 = b2 :=
    calc (b3 ++ b2 ++ b1 ++ b0).extractLsb' 16 8
        = (b3 ++ b2 ++ b1).extractLsb' 8 8 := BitVec.extractLsb'_append_eq_of_le (by decide)
      _ = (b3 ++ b2).extractLsb' 0 8 := BitVec.extractLsb'_append_eq_of_le (by decide)
      _ = b2 := BitVec.extractLsb'_append_eq_right
  have h3 : (b3 ++ b2 ++ b1 ++ b0).extractLsb' 24 8 = b3 :=
    calc (b3 ++ b2 ++ b1 ++ b0).extractLsb' 24 8
        = (b3 ++ b2 ++ b1).extractLsb' 16 8 := BitVec.extractLsb'_append_eq_of_le (by decide)
      _ = (b3 ++ b2).extractLsb' 8 8 := BitVec.extractLsb'_append_eq_of_le (by decide)
      _ = b3 := BitVec.extractLsb'_append_eq_left
  rw [wordBytes, h0, h1, h2, h3]

/-- The value of a byte of a word: what is left of the word above `k` bits, below 256. -/
theorem extractLsb'_byte_toNat (w : Word) (k : Nat) : (w.extractLsb' k 8).toNat = w.toNat / 2 ^ k % 256 := by
  rw [BitVec.extractLsb'_toNat, Nat.shiftRight_eq_div_pow]

theorem wordBytes_toNat (w : Word) :
    (wordBytes w).map BitVec.toNat =
      [w.toNat % 256, w.toNat / 256 % 256, w.toNat / 65536 % 256, w.toNat / 16777216] := by
  have htop : w.toNat / 16777216 % 256 = w.toNat / 16777216 := Nat.mod_eq_of_lt (by have := w.isLt; omega)
  simp only [wordBytes, List.map_cons, List.map_nil, extractLsb'_byte_toNat]
  simp [htop]

/-- The four bytes of a word put together give the word. -/
theorem append_wordBytes (w : Word) :
    w.extractLsb' 24 8 ++ w.extractLsb' 16 8 ++ w.extractLsb' 8 8 ++ w.extractLsb' 0 8 = w := by
  apply BitVec.eq_of_toNat_eq
  simp only [toNat_append_eq, extractLsb'_byte_toNat]
  have := w.isLt
  omega

theorem assembleWord_eq_some_iff (bs : List Byte) (w : Word) : assembleWord bs = some w ↔ bs = wordBytes w := by
  constructor
  · intro h
    match bs, h with
    | [b0, b1, b2, b3], h =>
      cases h
      exact (wordBytes_append b0 b1 b2 b3).symm
  · rintro rfl
    exact congrArg some (append_wordBytes w)

theorem wordsOfBytes_wordBytes_append (w : Word) (rest : List Byte) :
    wordsOfBytes (wordBytes w ++ rest) = w :: wordsOfBytes rest :=
  congrArg (· :: wordsOfBytes rest) (append_wordBytes w)

theorem wordsOfBytes_incomplete (part : List Byte) (h : part.length < 4) : wordsOfBytes part = [] := by
  match part, h with
  | [], _ | [_], _ | [_, _], _ | [_, _, _], _ => rfl

theorem wordsOfBytes_flatMap_wordBytes (ws : List Word) (part : List Byte) (h : part.length < 4) :
    wordsOfBytes (ws.flatMap wordBytes ++ part) = ws := by
  induction ws with
  | nil => exact wordsOfBytes_incomplete part h
  | cons w ws ih => rw [List.flatMap_cons, List.append_assoc, wordsOfBytes_wordBytes_append, ih]

/-- Settles O10: the values of the bytes, their assembly, and the stream by induction on its words. -/
theorem wordBytesAreLittleEndian : Obligations.WordBytesAreLittleEndian :=
  ⟨wordBytes_toNat, assembleWord_eq_some_iff, wordsOfBytes_flatMap_wordBytes⟩

end Sys2Proof

/-! SUPPORT. Which step a command word starts (R57, R205), which operations a trace starts (R59, R83), and that no step
writes the parameters (R36, R61). -/

namespace Sys2Proof.Machine

/-- Settles O13: a command word in a cycle is the next event, and its strobe is what is left of the cycle. -/
theorem stepRunsTheDecodedCommand : Obligations.StepRunsTheDecodedCommand := by
  intro s c rest i hstim hrst hvalid hdecode
  have hnext : nextEvent s.stimulus = (.run i, afterCommand c rest) := by
    rw [hstim, nextEvent_command c rest hrst hvalid, hdecode, decodedEvent]
  calc step s
      = exec i (takeInput s) := step_of_run s i (congrArg Prod.fst hnext)
    _ = exec i { s with stimulus := afterCommand c rest } := by rw [takeInput, hnext]

/-- Settles O16, by induction on the operations: the first step of the trace performs the first of them, which does not
read the inputs that wait. -/
theorem stimulusTraceRunsItsOperations : Obligations.StimulusTraceRunsItsOperations := by
  intro is
  induction is with
  | nil =>
    rintro s _ rfl
    rfl
  | cons i is ih =>
    intro s rest hstim
    obtain ⟨hevent, t, hstep, hrest⟩ := step_of_stimulusTrace_cons i is s rest hstim
    obtain ⟨u, hexec, hexec', -⟩ := exec_stimulus i (takeInput s) rest
    obtain rfl : u = t := Host.Outcome.next.inj (hexec.symm.trans ((step_of_run s i hevent).symm.trans hstep))
    have hrun : Sys2Proof.core.run (is.length + 1) s = execAll is { u with stimulus := rest } :=
      (run_succ_of_next is.length s u hstep).trans (ih u rest hrest)
    exact hrun.trans (execAll_cons i is { s with stimulus := rest } _ hexec').symm

theorem exec_keeps_params (i : Instr) (s t : State) (h : exec i s = .next t) : t.params = s.params := by
  cases i with
  | _ => cases h; simp

theorem step_keeps_params (s t : State) (h : step s = .next t) : t.params = s.params := by
  rcases step_cases s t h with ⟨-, rfl⟩ | ⟨-, rfl⟩ | ⟨i, -, hexec⟩
  · rfl
  · rfl
  · exact exec_keeps_params i (takeInput s) t hexec

/-- Settles O54, by induction on the length of the run. -/
theorem parametersNeverChange : Obligations.ParametersNeverChange := by
  intro n
  induction n with
  | zero =>
    rintro s _ ⟨⟩
    rfl
  | succ n ih =>
    intro s t hrun
    obtain ⟨u, hstep⟩ := step_completes s
    rw [run_succ_of_next n s u hstep] at hrun
    exact (ih u t hrun).trans (step_keeps_params s u hstep)

end Sys2Proof.Machine

/-! SUPPORT. What a command overwrites (R55, R58): the registers that a pair of commands both write, and that what one
command leaves in them is gone after the other. -/

namespace Sys2Proof.Machine

/-! ### Groups of registers -/

/-- The registers that commands of one kind write. -/
inductive RegGroup where
  /-- `OFFMEAS`, of WROFF. -/
  | offset
  /-- `WRAP` and `NEGWRAP`, of WRFOLD. -/
  | thresholds
  /-- `RESULT`, of LKCODE, LKNOTE and RDREG. -/
  | result
  /-- The ramp registers but `RCURRENT`, of a glide of one tick or more (R120). -/
  | rampLine
  /-- All six ramp registers, of any set-target command (R120). -/
  | ramp

/-- The state with the registers of a group cleared, so that two states are equal after it when they differ in that
group alone. -/
def State.forget (g : RegGroup) (s : State) : State :=
  match g with
  | .offset => { s with offmeas := 0 }
  | .thresholds => { s with wrap := 0, negwrap := 0 }
  | .result => { s with result := 0 }
  | .rampLine => { s with rtarget := 0, rstart := 0, rtotal := 0, rremain := 0, rmode := .immediate }
  | .ramp => { s with rtarget := 0, rcurrent := 0, rstart := 0, rtotal := 0, rremain := 0, rmode := .immediate }

/-- The state with a group and `RESULT` cleared. No command carries a register of one group into another but `RESULT`,
which RDREG writes and none reads, so until a TICK what is left here depends on itself alone. -/
def State.outside (g : RegGroup) (s : State) : State := (s.forget g).forget .result

@[simp] theorem forget_params (g : RegGroup) (s : State) : (s.forget g).params = s.params := by cases g <;> rfl

@[simp] theorem outside_params (g : RegGroup) (s : State) : (s.outside g).params = s.params := by cases g <;> rfl

theorem outside_outside (g : RegGroup) (s : State) : (s.outside g).outside g = s.outside g := by cases g <;> rfl

theorem outside_result (s : State) : s.outside .result = s.forget .result := rfl

/-- Two states that agree but in `RESULT` are one the other with its `RESULT`. -/
theorem eq_with_result_of_forget_eq {s t : State} (h : s.forget .result = t.forget .result) :
    s = { t with result := s.result } :=
  congrArg (fun u : State => { u with result := s.result }) h

/-! ### A command outside a group -/

theorem writeResult_outside (g : RegGroup) (v : BitVec 32) (s : State) : (writeResult v s).outside g = s.outside g := by
  cases g <;> rfl

theorem writeOffmeas_outside (g : RegGroup) (v : Half) (s : State) :
    (writeOffmeas v (s.outside g)).outside g = (writeOffmeas v s).outside g := by
  cases g <;> rfl

theorem writeThresholds_outside (g : RegGroup) (w n : Half) (s : State) :
    (writeThresholds w n (s.outside g)).outside g = (writeThresholds w n s).outside g := by
  cases g <;> rfl

theorem rampSetTarget_outside (g : RegGroup) (T : Half) (D : Nat) (glide : Bool) (s : State) :
    (rampSetTarget T D glide (s.outside g)).outside g = (rampSetTarget T D glide s).outside g := by
  by_cases h : glide = false ∨ D = 0
  · rw [rampSetTarget_immediate T D glide s h, rampSetTarget_immediate T D glide (s.outside g) h]
    cases g <;> rfl
  · obtain ⟨hglide, hD⟩ := not_or.mp h
    obtain rfl : glide = true := Bool.eq_true_of_not_eq_false hglide
    rw [rampSetTarget_glide T D s hD, rampSetTarget_glide T D (s.outside g) hD]
    cases g <;> rfl

/-- What a command leaves outside a group and `RESULT` depends on what it finds outside them alone. -/
theorem exec_outside (g : RegGroup) (i : Instr) (s t : State) (hi : i ≠ .tick) (h : exec i s = .next t) :
    ∃ u, exec i (s.outside g) = .next u ∧ u.outside g = t.outside g := by
  cases i with
  | tick => exact absurd rfl hi
  | nop => cases h; exact ⟨_, rfl, outside_outside g s⟩
  | settImm T => cases h; exact ⟨_, rfl, rampSetTarget_outside g T 0 false s⟩
  | settGlide T d => cases h; exact ⟨_, rfl, rampSetTarget_outside g T d.toNat true s⟩
  | setnImm n =>
    cases h
    exact ⟨_, exec_setnImm n _, by rw [outside_params]; exact rampSetTarget_outside g _ 0 false s⟩
  | setnGlide n d =>
    cases h
    exact ⟨_, exec_setnGlide n d _, by rw [outside_params]; exact rampSetTarget_outside g _ d.toNat true s⟩
  | wroff v => cases h; exact ⟨_, rfl, writeOffmeas_outside g v s⟩
  | wrfold v => cases h; exact ⟨_, rfl, writeThresholds_outside g _ _ s⟩
  | lkcode _ | lknote _ | rdreg _ =>
    cases h
    exact ⟨_, rfl, by simp only [writeResult_outside, outside_outside]⟩

/-- States that agree outside a group and `RESULT` still do after a command. -/
theorem exec_outside_congr (g : RegGroup) (i : Instr) {s s' t t' : State} (hi : i ≠ .tick)
    (hs : s.outside g = s'.outside g) (h : exec i s = .next t) (h' : exec i s' = .next t') :
    t.outside g = t'.outside g := by
  obtain ⟨u, hu, hut⟩ := exec_outside g i s t hi h
  obtain ⟨u', hu', hut'⟩ := exec_outside g i s' t' hi h'
  obtain rfl : u = u' := Host.Outcome.next.inj (hu.symm.trans ((congrArg (exec i) hs).trans hu'))
  exact hut.symm.trans hut'

/-! ### Lists of operations -/

theorem execAll_singleton (i : Instr) (s : State) : execAll [i] s = exec i s := by
  obtain ⟨t, ht⟩ := exec_completes i s
  rw [execAll_cons i [] s t ht, execAll_nil, ht]

theorem execAll_append (is js : List Instr) (s t : State) (h : execAll is s = .next t) :
    execAll (is ++ js) s = execAll js t := by
  induction is generalizing s with
  | nil => cases h; rfl
  | cons i is ih =>
    obtain ⟨u, hu⟩ := exec_completes i s
    rw [execAll_cons i is s u hu] at h
    exact (execAll_cons i (is ++ js) s u hu).trans (ih u h)

/-- States that agree outside a group and `RESULT` still do after any commands. -/
theorem execAll_outside_congr (g : RegGroup) (is : List Instr) (s s' : State) (his : .tick ∉ is)
    (hs : s.outside g = s'.outside g) :
    ∃ t t', execAll is s = .next t ∧ execAll is s' = .next t' ∧ t.outside g = t'.outside g := by
  induction is generalizing s s' with
  | nil => exact ⟨s, s', rfl, rfl, hs⟩
  | cons i is ih =>
    have hi : i ≠ .tick := (List.ne_of_not_mem_cons his).symm
    obtain ⟨u, hu⟩ := exec_completes i s
    obtain ⟨u', hu'⟩ := exec_completes i s'
    rw [execAll_cons i is s u hu, execAll_cons i is s' u' hu']
    exact ih u u' (List.not_mem_of_not_mem_cons his) (exec_outside_congr g i hi hs hu hu')

/-! ### Overwriting -/

/-- The second command overwrites what the first writes: the first writes registers of the group alone, and the second
leaves the same state whatever the group held. -/
structure Overwritten (g : RegGroup) (i j : Instr) : Prop where
  writes_only : ∀ s t, exec i s = .next t → t.forget g = s.forget g
  overwrites : ∀ s, exec j (s.forget g) = exec j s

namespace Overwritten

theorem wroff_wroff (a b : Half) : Overwritten .offset (.wroff a) (.wroff b) where
  writes_only := by rintro s _ ⟨⟩; rfl
  overwrites _ := rfl

theorem wrfold_wrfold (a b : BitVec 11) : Overwritten .thresholds (.wrfold a) (.wrfold b) where
  writes_only := by rintro s _ ⟨⟩; rfl
  overwrites _ := rfl

/-- `RESULT` is read by no command (R32, R38). -/
theorem reading_reading (i j : Instr) (hi : isReading i = true) (hj : isReading j = true) :
    Overwritten .result i j where
  writes_only := by
    cases i with
    | lkcode | lknote | rdreg => rintro s _ ⟨⟩; rfl
    | _ => cases hi
  overwrites := by
    cases j with
    | lkcode | lknote | rdreg => exact fun _ => rfl
    | _ => cases hj

end Overwritten

/-- A set-target command is one call of the ramp primitive, in glide form with a duration other than 0 exactly for the
commands that `isGlide` names (R120, R124 to R127). -/
theorem exec_of_isSetTarget (i : Instr) (h : isSetTarget i = true) :
    ∃ (T : Params → Half) (D : Nat) (glide : Bool), (isGlide i = true ↔ glide = true ∧ D ≠ 0) ∧
      ∀ s, exec i s = .next (rampSetTarget (T s.params) D glide s) := by
  have dur_ne_zero (d : BitVec 12) : (d != 0) = true ↔ true = true ∧ d.toNat ≠ 0 := by
    simp [BitVec.toNat_eq]
  cases i with
  | settImm T => exact ⟨fun _ => T, 0, false, by simp [isGlide], exec_settImm T⟩
  | settGlide T d => exact ⟨fun _ => T, d.toNat, true, dur_ne_zero d, exec_settGlide T d⟩
  | setnImm n => exact ⟨(lookupByMidiNote · n.toNat), 0, false, by simp [isGlide], exec_setnImm n⟩
  | setnGlide n d => exact ⟨(lookupByMidiNote · n.toNat), d.toNat, true, dur_ne_zero d, exec_setnGlide n d⟩
  | _ => cases h

theorem rampSetTarget_forget_ramp (T : Half) (D : Nat) (glide : Bool) (s : State) :
    (rampSetTarget T D glide s).forget .ramp = s.forget .ramp := by
  unfold rampSetTarget
  split <;> rfl

/-- A glide writes every ramp register but `RCURRENT` (R120). -/
theorem rampSetTarget_glide_forget_rampLine (T : Half) (D : Nat) (s : State) (h : D ≠ 0) :
    (rampSetTarget T D true s).forget .rampLine = s.forget .rampLine := by
  rw [rampSetTarget_glide T D s h]
  rfl

/-- A set-target reads no ramp register but `RCURRENT`. -/
theorem rampSetTarget_of_forget_rampLine (T : Half) (D : Nat) (glide : Bool) (s : State) :
    rampSetTarget T D glide (s.forget .rampLine) = rampSetTarget T D glide s := by
  unfold rampSetTarget
  split <;> rfl

/-- An Immediate set-target reads no ramp register. -/
theorem rampSetTarget_immediate_of_forget_ramp (T : Half) (D : Nat) (glide : Bool) (s : State)
    (h : glide = false ∨ D = 0) : rampSetTarget T D glide (s.forget .ramp) = rampSetTarget T D glide s := by
  rw [rampSetTarget_immediate T D glide s h, rampSetTarget_immediate T D glide (s.forget .ramp) h]
  rfl

namespace Overwritten

theorem setTarget_after_glide (i j : Instr) (hi : isSetTarget i = true) (hj : isSetTarget j = true)
    (hglide : isGlide i = true) : Overwritten .rampLine i j := by
  obtain ⟨T, D, g, hg, hexec⟩ := exec_of_isSetTarget i hi
  obtain ⟨T', D', g', -, hexec'⟩ := exec_of_isSetTarget j hj
  obtain ⟨rfl, hD⟩ := hg.mp hglide
  refine ⟨fun s t h => ?_, fun s => ?_⟩
  · obtain rfl := Host.Outcome.next.inj ((hexec s).symm.trans h)
    exact rampSetTarget_glide_forget_rampLine (T s.params) D s hD
  · rw [hexec', hexec', forget_params, rampSetTarget_of_forget_rampLine]

theorem immediate_after_setTarget (i j : Instr) (hi : isSetTarget i = true) (hj : isSetTarget j = true)
    (hglide : isGlide j = false) : Overwritten .ramp i j := by
  obtain ⟨T, D, g, -, hexec⟩ := exec_of_isSetTarget i hi
  obtain ⟨T', D', g', hg', hexec'⟩ := exec_of_isSetTarget j hj
  have himmediate : g' = false ∨ D' = 0 := by
    by_contra hnot
    obtain ⟨hg, hD⟩ := not_or.mp hnot
    exact Bool.false_ne_true (hglide.symm.trans (hg'.mpr ⟨Bool.eq_true_of_not_eq_false hg, hD⟩))
  refine ⟨fun s t h => ?_, fun s => ?_⟩
  · obtain rfl := Host.Outcome.next.inj ((hexec s).symm.trans h)
    exact rampSetTarget_forget_ramp (T s.params) D g s
  · rw [hexec', hexec', forget_params, rampSetTarget_immediate_of_forget_ramp (T' s.params) D' g' s himmediate]

/-- Of two set-targets the second overwrites the first, unless it is a glide and the first is none: it would start at
the increment the first has changed (R120). -/
theorem setTarget_setTarget (i j : Instr) (hi : isSetTarget i = true) (hj : isSetTarget j = true)
    (h : isGlide i = true ∨ isGlide j = false) : ∃ g, Overwritten g i j :=
  h.elim (fun hglide => ⟨_, setTarget_after_glide i j hi hj hglide⟩)
    (fun himmediate => ⟨_, immediate_after_setTarget i j hi hj himmediate⟩)

theorem setTarget_self (i : Instr) (hi : isSetTarget i = true) : ∃ g, Overwritten g i i :=
  setTarget_setTarget i i hi hi (Bool.eq_false_or_eq_true (isGlide i))

/-- Every command but NOP, which writes nothing, overwrites itself (R55). -/
theorem self (i : Instr) (htick : i ≠ .tick) (hnop : i ≠ .nop) : ∃ g, Overwritten g i i := by
  cases i with
  | tick => exact absurd rfl htick
  | nop => exact absurd rfl hnop
  | wroff v => exact ⟨_, wroff_wroff v v⟩
  | wrfold v => exact ⟨_, wrfold_wrfold v v⟩
  | lkcode | lknote | rdreg => exact ⟨_, reading_reading _ _ rfl rfl⟩
  | settImm | settGlide | setnImm | setnGlide => exact setTarget_self _ rfl

variable {g : RegGroup} {i j : Instr}

/-- An overwritten command right before its overwriter does not show. -/
theorem exec_eq (h : Overwritten g i j) (s t : State) (hexec : exec i s = .next t) : exec j t = exec j s :=
  calc exec j t
      = exec j (t.forget g) := (h.overwrites t).symm
    _ = exec j (s.forget g) := congrArg (exec j) (h.writes_only s t hexec)
    _ = exec j s := h.overwrites s

theorem execAll_pair (h : Overwritten g i j) (s : State) : execAll [i, j] s = exec j s := by
  obtain ⟨t, ht⟩ := exec_completes i s
  rw [execAll_cons i [j] s t ht, execAll_singleton, h.exec_eq s t ht]

/-- After the overwriter, states that agreed outside the group and `RESULT` agree but in `RESULT`. -/
theorem exec_of_outside_eq (h : Overwritten g i j) (hj : j ≠ .tick) {s s' t t' : State}
    (hs : s.outside g = s'.outside g) (ht : exec j s = .next t) (ht' : exec j s' = .next t') :
    t.forget .result = t'.forget .result := by
  have hforget : (s.forget g).outside .result = (s'.forget g).outside .result := by
    rw [outside_result, outside_result]
    exact hs
  have hout : t.outside .result = t'.outside .result :=
    exec_outside_congr .result j hj hforget ((h.overwrites s).trans ht) ((h.overwrites s').trans ht')
  rwa [outside_result, outside_result] at hout

/-- With other commands between the two, the overwritten command shows in `RESULT` at most. -/
theorem execAll_between (h : Overwritten g i j) (hj : j ≠ .tick) (is : List Instr) (s : State) (his : .tick ∉ is) :
    ∃ t u, execAll (i :: is ++ [j]) s = .next t ∧ execAll (is ++ [j]) s = .next u ∧
      t = { u with result := t.result } := by
  obtain ⟨s', hs'⟩ := exec_completes i s
  have hagree : s'.outside g = s.outside g := congrArg (State.forget .result) (h.writes_only s s' hs')
  obtain ⟨v, v', hv, hv', hout⟩ := execAll_outside_congr g is s' s his hagree
  obtain ⟨t, ht⟩ := exec_completes j v
  obtain ⟨u, hu⟩ := exec_completes j v'
  refine ⟨t, u, ?_, ?_, eq_with_result_of_forget_eq (h.exec_of_outside_eq hj hout ht hu)⟩
  · rw [List.cons_append, execAll_cons i _ s s' hs', execAll_append is [j] s' v hv, execAll_singleton, ht]
  · rw [execAll_append is [j] s v' hv', execAll_singleton, hu]

end Overwritten

/-! ### The statements -/

/-- Settles O57: a repeated command is one that overwrites itself, or a NOP. -/
theorem repeatedCommandIsIdempotent : Obligations.RepeatedCommandIsIdempotent := by
  intro i s t htick h
  by_cases hnop : i = .nop
  · subst hnop
    rfl
  · obtain ⟨g, hover⟩ := Overwritten.self i htick hnop
    exact (hover.exec_eq s t h).trans h

/-- Of two set-targets the second shows, from the increment the first leaves; a glide leaves it as it was (R120). -/
theorem execAll_setTarget_pair (i j : Instr) (s : State) (hi : isSetTarget i = true) (hj : isSetTarget j = true) :
    ∃ t, exec i s = .next t ∧ (isGlide i = true → t.rcurrent = s.rcurrent) ∧
      execAll [i, j] s = exec j { s with rcurrent := t.rcurrent } := by
  obtain ⟨T, D, g, hg, hexec⟩ := exec_of_isSetTarget i hi
  obtain ⟨T', D', g', -, hexec'⟩ := exec_of_isSetTarget j hj
  refine ⟨_, hexec s, fun hglide => ?_, ?_⟩
  · obtain ⟨rfl, hD⟩ := hg.mp hglide
    exact rampSetTarget_glide_rcurrent (T s.params) D s hD
  · rw [execAll_cons i [j] s _ (hexec s), execAll_singleton, hexec', hexec', rampSetTarget_params,
      rampSetTarget_rampSetTarget]

theorem ne_tick_of_isReading (i : Instr) (h : isReading i = true) : i ≠ .tick := by
  rintro rfl
  cases h

theorem ne_tick_of_isSetTarget (i : Instr) (h : isSetTarget i = true) : i ≠ .tick := by
  rintro rfl
  cases h

/-- Settles O58: each pair of commands that write the same registers is a pair of one overwritten by the other. -/
theorem lastWriteWins : Obligations.LastWriteWins := by
  refine ⟨execAll_setTarget_pair, fun i j hpair => ?_⟩
  obtain ⟨g, hover, hj⟩ : ∃ g, Overwritten g i j ∧ j ≠ .tick := by
    rcases hpair with ⟨a, b, rfl, rfl⟩ | ⟨a, b, rfl, rfl⟩ | ⟨hi, hj⟩ | ⟨hi, hj, hkind⟩
    · exact ⟨_, .wroff_wroff a b, nofun⟩
    · exact ⟨_, .wrfold_wrfold a b, nofun⟩
    · exact ⟨_, .reading_reading i j hi hj, ne_tick_of_isReading j hj⟩
    · obtain ⟨g, hover⟩ := Overwritten.setTarget_setTarget i j hi hj hkind
      exact ⟨g, hover, ne_tick_of_isSetTarget j hj⟩
  exact ⟨hover.execAll_pair, hover.execAll_between hj⟩

end Sys2Proof.Machine

/-! SUPPORT. Decoding through the rows of the opcode map (R80 to R84): a word has at most one row, the row of its `op`;
the bits a row's mask covers are the row's, so its operand fields are all that is left of a word that selects it. -/

namespace Sys2Proof

/-! ### The two directions of the round trip, in a stimulus trace -/

/-- The stimulus word of an operation decodes to the operation (R83). -/
theorem decodeStimulus_encode (i : Instr) : decodeStimulus (encode i) = .instr i := by
  by_cases h : i = .tick
  · subst h
    exact decodeStimulus_tickWord
  · rw [decodeStimulus_of_ne _ (encode_ne_tickWord i h), decodeCommand_encode i h]

/-- Settles O1: on `cmd_word` by the operation's row, and in a trace because only a TICK has the tick word. -/
theorem decodeInvertsEncode : Obligations.DecodeInvertsEncode :=
  fun i => ⟨decodeStimulus_encode i, decodeCommand_encode i⟩

/-! ### The rows of the opcode map -/

theorem OpRow.selects_iff (r : OpRow) (w : Word) : r.selects w = true ↔ w &&& r.mask = r.pattern :=
  beq_iff_eq

/-- The rows differ in their `op` (R84). -/
theorem opcodeMap_op_inj {r q : OpRow} (hr : r ∈ opcodeMap) (hq : q ∈ opcodeMap) (h : r.op = q.op) : r = q :=
  List.inj_on_of_nodup_map (f := OpRow.op) (by decide) hr hq h

/-- Every mask covers the field `op`, and the match holds the row's `op` there (R80). -/
theorem opcodeMap_opField : ∀ r ∈ opcodeMap, opField r.mask = BitVec.allOnes 4 ∧ opField r.pattern = r.op := by
  decide

/-- No row gives a TICK (R83). -/
theorem build_ne_tick (r : OpRow) (hr : r ∈ opcodeMap) (w : Word) : r.build w ≠ .tick := by
  revert r
  simp [opcodeMap]

/-- Where a row's mask is all ones, a word that selects the row has the bits of the row's match. -/
theorem extractLsb'_of_selects {r : OpRow} {w : Word} (h : r.selects w = true) (start len : Nat)
    (hmask : r.mask.extractLsb' start len = BitVec.allOnes len) :
    w.extractLsb' start len = r.pattern.extractLsb' start len := by
  rw [← (r.selects_iff w).1 h, BitVec.extractLsb'_and, hmask, BitVec.and_allOnes]

/-- A word selects no row but that of its `op`. -/
theorem op_of_selects {r : OpRow} (hr : r ∈ opcodeMap) {w : Word} (h : r.selects w = true) : r.op = opField w := by
  obtain ⟨hmask, hpattern⟩ := opcodeMap_opField r hr
  exact hpattern.symm.trans (extractLsb'_of_selects h 28 4 hmask).symm

/-! ### Decoding by the row of the word's `op` -/

theorem decodeCommand_of_op {r : OpRow} (hr : r ∈ opcodeMap) (w : Word) (hop : r.op = opField w) :
    decodeCommand w = if r.selects w then .instr (r.build w) else .ignored .reservedBits := by
  cases hfind : opcodeMap.find? (fun q => q.op == opField w) with
  | none => exact absurd (beq_iff_eq.2 hop) (List.find?_eq_none.1 hfind r hr)
  | some q =>
    have hq : q.op = opField w := by simpa using List.find?_some hfind
    obtain rfl : q = r := opcodeMap_op_inj (List.mem_of_find?_eq_some hfind) hr (hq.trans hop.symm)
    rw [decodeCommand, hfind]

theorem decodeCommand_of_selects {r : OpRow} (hr : r ∈ opcodeMap) (w : Word) (h : r.selects w = true) :
    decodeCommand w = .instr (r.build w) := by
  rw [decodeCommand_of_op hr w (op_of_selects hr h), if_pos h]

/-- A word that selects no row is an ignored word (R81, R82). -/
theorem decodeCommand_of_not_selects (w : Word) (h : ∀ r ∈ opcodeMap, r.selects w = false) :
    ∃ why, decodeCommand w = .ignored why := by
  by_cases hop : ∃ r ∈ opcodeMap, r.op = opField w
  · obtain ⟨r, hr, hop⟩ := hop
    exact ⟨.reservedBits, by rw [decodeCommand_of_op hr w hop, h r hr]; rfl⟩
  · have hfind : opcodeMap.find? (fun r => r.op == opField w) = none :=
      List.find?_eq_none.2 fun r hr heq => hop ⟨r, hr, beq_iff_eq.1 heq⟩
    exact ⟨.reservedOpcode, by rw [decodeCommand, hfind]⟩

/-- Settles O3: a word that selects a row has the row's `op`, which no other row has. -/
theorem decodingIsTotalAndUnambiguous : Obligations.DecodingIsTotalAndUnambiguous := by
  refine ⟨rfl, fun w => ?_⟩
  by_cases h : ∃ r ∈ opcodeMap, r.selects w = true
  · obtain ⟨r, hr, hsel⟩ := h
    exact .inl ⟨r, hr, hsel, decodeCommand_of_selects hr w hsel, build_ne_tick r hr w,
      fun q hq hq' => (op_of_selects hq hq').trans (op_of_selects hr hsel).symm⟩
  · have hnone : ∀ r ∈ opcodeMap, r.selects w = false := fun r hr => Bool.eq_false_iff.2 fun hsel => h ⟨r, hr, hsel⟩
    exact .inr ⟨hnone, decodeCommand_of_not_selects w hnone⟩

/-- A word on `cmd_word` is a command exactly when it selects the command's row. -/
theorem decodeCommand_eq_instr_iff (w : Word) (i : Instr) :
    decodeCommand w = .instr i ↔ ∃ r ∈ opcodeMap, r.selects w = true ∧ r.build w = i := by
  constructor
  · intro h
    rcases decodingIsTotalAndUnambiguous.2 w with ⟨r, hr, hsel, hdecode, -⟩ | ⟨-, why, hdecode⟩
    · exact ⟨r, hr, hsel, Decoded.instr.inj (hdecode.symm.trans h)⟩
    · cases hdecode.symm.trans h
  · rintro ⟨r, hr, hsel, rfl⟩
    exact decodeCommand_of_selects hr w hsel

/-- Settles O4: the rows one by one. -/
theorem eachRowDecodesItsFields : Obligations.EachRowDecodesItsFields := by
  intro w
  have hrows : ∀ r ∈ opcodeMap, w &&& r.mask = r.pattern → decodeCommand w = .instr (r.build w) :=
    fun r hr h => decodeCommand_of_selects hr w ((r.selects_iff w).2 h)
  simp only [opcodeMap, List.forall_mem_cons] at hrows
  obtain ⟨h0, h1, h2, h3, h4, h5, h6, h7, h8, h9, -⟩ := hrows
  exact ⟨h0, h1, h2, h3, h4, h5, h6, h7, h8, h9⟩

/-! ### The word of the decoded operation -/

/-- A word is its `n` upper bits laid before its `k` lower ones. -/
theorem append_extractLsb'_of_upper (n k : Nat) (upper : BitVec n) (w : BitVec (n + k))
    (h : w.extractLsb' k n = upper) : upper ++ w.extractLsb' 0 k = w := by
  rw [← h, BitVec.extractLsb'_append_extractLsb'_eq_extractLsb' (Nat.zero_add k).symm, BitVec.extractLsb'_eq_self]

/-- The upper half of a word is its `op` and its bits 27:16 (R70). -/
theorem upperHalf_eq (w : Word) (op : BitVec 4) (h : opField w = op) : w.extractLsb' 16 16 = op ++ durField w := by
  subst h
  exact (BitVec.extractLsb'_append_extractLsb'_eq_extractLsb' (x := w) (len₁ := 12) (len₂ := 4) rfl).symm

/-- The operation of a selected row has the selecting word for its word: the mask's bits are the match's, the others
are operands. -/
theorem encode_build (w : Word) : ∀ r ∈ opcodeMap, r.selects w = true → encode (r.build w) = w := by
  simp only [opcodeMap, List.forall_mem_cons]
  refine ⟨fun h => ?nop, fun h => ?settImm, fun h => ?settGlide, fun h => ?setnImm, fun h => ?setnGlide,
    fun h => ?wroff, fun h => ?wrfold, fun h => ?lkcode, fun h => ?lknote, fun h => ?rdreg, nofun⟩
  case nop => exact (extractLsb'_of_selects h 0 32 rfl).symm.trans BitVec.extractLsb'_eq_self
  case settImm => exact append_extractLsb'_of_upper 16 16 (0x1#4 ++ 0#12) w (extractLsb'_of_selects h 16 16 rfl)
  case settGlide =>
    have hop : opField w = 0x2#4 := extractLsb'_of_selects h 28 4 rfl
    exact append_extractLsb'_of_upper 16 16 (0x2#4 ++ durField w) w (upperHalf_eq w _ hop)
  case setnImm => exact append_extractLsb'_of_upper 25 7 (0x3#4 ++ 0#21) w (extractLsb'_of_selects h 7 25 rfl)
  case setnGlide =>
    have hop : opField w = 0x4#4 := extractLsb'_of_selects h 28 4 rfl
    have hzero : w.extractLsb' 7 9 = 0#9 := extractLsb'_of_selects h 7 9 rfl
    have hupper : w.extractLsb' 7 25 = 0x4#4 ++ durField w ++ 0#9 := by
      rw [← upperHalf_eq w _ hop, ← hzero]
      exact (BitVec.extractLsb'_append_extractLsb'_eq_extractLsb' (x := w) (len₁ := 9) (len₂ := 16) rfl).symm
    exact append_extractLsb'_of_upper 25 7 (0x4#4 ++ durField w ++ 0#9) w hupper
  case wroff => exact append_extractLsb'_of_upper 16 16 (0x5#4 ++ 0#12) w (extractLsb'_of_selects h 16 16 rfl)
  case wrfold => exact append_extractLsb'_of_upper 21 11 (0x6#4 ++ 0#17) w (extractLsb'_of_selects h 11 21 rfl)
  case lkcode => exact append_extractLsb'_of_upper 22 10 (0x7#4 ++ 0#18) w (extractLsb'_of_selects h 10 22 rfl)
  case lknote => exact append_extractLsb'_of_upper 25 7 (0x8#4 ++ 0#21) w (extractLsb'_of_selects h 7 25 rfl)
  case rdreg => exact append_extractLsb'_of_upper 28 4 (0x9#4 ++ 0#24) w (extractLsb'_of_selects h 4 28 rfl)

/-- A word on `cmd_word` that decodes to a command is the command's word. -/
theorem encode_of_decodeCommand (w : Word) (i : Instr) (h : decodeCommand w = .instr i) : encode i = w := by
  obtain ⟨r, hr, hsel, rfl⟩ := (decodeCommand_eq_instr_iff w i).1 h
  exact encode_build w r hr hsel

/-- Settles O2: the tick word is the word of a TICK, every other word is read through its row. -/
theorem encodeInvertsDecode : Obligations.EncodeInvertsDecode := by
  intro w i h
  by_cases hw : w = tickWord
  · subst hw
    rw [decodeStimulus_tickWord] at h
    cases h
    rfl
  · exact encode_of_decodeCommand w i (decodeStimulus_of_ne w hw ▸ h)

/-- No word on `cmd_word` is a TICK (R83). -/
theorem decodeCommand_ne_tick (w : Word) : decodeCommand w ≠ .instr .tick := by
  intro h
  obtain ⟨r, hr, -, hbuild⟩ := (decodeCommand_eq_instr_iff w .tick).1 h
  exact build_ne_tick r hr w hbuild

/-- Settles O5: each word is laid out as the word of its operation. -/
theorem spelledWordsDecode : Obligations.SpelledWordsDecode :=
  ⟨decodeCommand_encode (.settImm 1000) nofun, decodeCommand_encode (.settGlide 2000 4) nofun,
    decodeCommand_encode (.setnGlide 72 200) nofun, decodeCommand_encode (.wrfold 2047) nofun,
    decodeCommand_encode (.lkcode 1023) nofun, decodeCommand_encode (.rdreg 10) nofun, decodeStimulus_encode .tick⟩

end Sys2Proof

/-! SUPPORT. Ignored words (R81, R82) and stimulus words (R83) at the ports. -/

namespace Sys2Proof.Machine

/-! ### Ignored words -/

/-- The reserved bits of the format of each `op` (R71 to R78, R80). -/
def formatReservedBits : List (Nat × Word) :=
  [(0, 0x0FFFFFFF), (1, 0x0FFF0000), (2, 0), (3, 0x0FFFFF80), (4, 0x0000FF80), (5, 0x0FFF0000),
    (6, 0x0FFFF800), (7, 0x0FFFFC00), (8, 0x0FFFFF80), (9, 0x0FFFFFF0)]

/-- The row of each `op` has its reserved bits in its mask and none of them in its match. -/
theorem formatReservedBits_row : ∀ x ∈ formatReservedBits, ∃ r ∈ opcodeMap,
    r.op.toNat = x.1 ∧ r.mask &&& x.2 = x.2 ∧ r.pattern &&& x.2 = 0 := by decide

/-- A word that selects a row has no reserved bit of the row's format set. -/
theorem and_reserved_of_selects {r : OpRow} {w reserved : Word} (hmask : r.mask &&& reserved = reserved)
    (hpattern : r.pattern &&& reserved = 0) (h : r.selects w = true) : w &&& reserved = 0 :=
  calc w &&& reserved
      = w &&& r.mask &&& reserved := by rw [BitVec.and_assoc, hmask]
    _ = 0 := by rw [(r.selects_iff w).1 h, hpattern]

theorem decodeCommand_of_reserved_bit (w : Word) (x : Nat × Word) (hx : x ∈ formatReservedBits)
    (hop : w.toNat / 0x10000000 = x.1) (hbit : w &&& x.2 ≠ 0) : decodeCommand w = .ignored .reservedBits := by
  obtain ⟨r, hr, hrop, hmask, hpattern⟩ := formatReservedBits_row x hx
  have hfield : r.op = opField w := BitVec.eq_of_toNat_eq (hrop.trans (hop.symm.trans (opField_toNat w).symm))
  rw [decodeCommand_of_op hr w hfield, if_neg fun hsel => hbit (and_reserved_of_selects hmask hpattern hsel)]

/-- The step that accepts an ignored word changes nothing but the inputs to come (R81, R82, R205). -/
theorem step_of_ignored_word (s : State) (c : PortCycle) (rest : List PortCycle) (why : IgnoreReason)
    (hstim : s.stimulus = c :: rest) (hrst : c.rst = false) (hvalid : c.cmdValid = true)
    (hdecode : decodeCommand c.cmdWord = .ignored why) :
    step s = .next { s with stimulus := afterCommand c rest } := by
  have hnext : nextEvent s.stimulus = (.ignored why, afterCommand c rest) := by
    rw [hstim, nextEvent_command c rest hrst hvalid, hdecode, decodedEvent]
  calc step s
      = .next (takeInput s) := step_of_ignored s why (congrArg Prod.fst hnext)
    _ = .next { s with stimulus := afterCommand c rest } := by rw [takeInput, hnext]

/-- Settles O7: a word from 0xA0000000 up has an `op` above every row's. -/
theorem reservedOpcodeIsIgnored : Obligations.ReservedOpcodeIsIgnored := by
  intro s c rest hstim hrst hvalid hword
  have hop : 10 ≤ (opField c.cmdWord).toNat := by rw [opField_toNat]; omega
  have hdecode := decodeCommand_reserved c.cmdWord hop
  exact ⟨hdecode, step_of_ignored_word s c rest _ hstim hrst hvalid hdecode⟩

/-- Settles O8: a set reserved bit keeps the word from selecting the row of its `op`. -/
theorem reservedBitIsIgnored : Obligations.ReservedBitIsIgnored := by
  intro s c rest op reserved hmem hstim hrst hvalid hop hbit
  have hdecode := decodeCommand_of_reserved_bit c.cmdWord (op, reserved) hmem hop hbit
  exact ⟨hdecode, step_of_ignored_word s c rest _ hstim hrst hvalid hdecode⟩

/-! ### Stimulus words -/

/-- Settles O9: the tick word stands for the strobe only in a trace, and no row of the opcode map gives a TICK. -/
theorem stimulusWordsReachThePorts : Obligations.StimulusWordsReachThePorts := by
  refine ⟨fun w => ⟨?_, fun hw => ⟨if_neg hw, decodeStimulus_of_ne w hw⟩⟩, decodeCommand_ne_tick⟩
  rintro rfl
  exact ⟨rfl, decodeStimulus_tickWord, decodeCommand_tickWord⟩

/-- A word handed over as 32 bits is presented as it is. -/
theorem withFetchWord_toNat (s : State) (w : Word) : s.withFetchWord 32 w.toNat = presentWord w s := by
  rw [State.withFetchWord, Nat.mod_eq_of_lt w.isLt, BitVec.ofNat_toNat, BitVec.setWidth_eq]

/-- Settles O15: the cycle of the presented word is the next event, and what is left of the inputs is what waited. -/
theorem presentedWordRunsNext : Obligations.PresentedWordRunsNext := by
  intro i s
  have hnext : nextEvent (presentWord (encode i) s).stimulus = (.run i, s.stimulus) :=
    nextEvent_stimulusCycle_encode i s.stimulus
  calc step (s.withFetchWord 32 (encode i).toNat)
      = step (presentWord (encode i) s) := by rw [withFetchWord_toNat]
    _ = exec i (takeInput (presentWord (encode i) s)) := step_of_run _ i (congrArg Prod.fst hnext)
    _ = exec i s := by rw [takeInput, hnext]; rfl

end Sys2Proof.Machine

/-! SUPPORT. The words of source statements (R85, R86): the number of each operation's word, the statements the
assembler refuses, and the expansions of the pseudo-instructions. -/

namespace Sys2Proof

/-! ### The word of an operation as a number (R85) -/

/-- The formats with one operand: `op`, reserved zeros, operand. -/
theorem toNat_op_operand (op : BitVec 4) (n : Nat) {k : Nat} (v : BitVec k) :
    (op ++ 0#n ++ v).toNat = op.toNat * 2 ^ n * 2 ^ k + v.toNat := by
  rw [toNat_append_eq, toNat_append_eq, BitVec.toNat_zero, Nat.add_zero]

@[simp] theorem encode_nop_toNat : (encode .nop).toNat = 0 := rfl

@[simp] theorem encode_settImm_toNat (target : Half) : (encode (.settImm target)).toNat = 0x10000000 + target.toNat :=
  toNat_op_operand 0x1#4 12 target

@[simp] theorem encode_settGlide_toNat (target : Half) (dur : BitVec 12) :
    (encode (.settGlide target dur)).toNat = 0x20000000 + dur.toNat * 0x10000 + target.toNat := by
  simp only [encode, toNat_append_eq, BitVec.toNat_ofNat]
  omega

@[simp] theorem encode_setnImm_toNat (note : BitVec 7) : (encode (.setnImm note)).toNat = 0x30000000 + note.toNat :=
  toNat_op_operand 0x3#4 21 note

@[simp] theorem encode_setnGlide_toNat (note : BitVec 7) (dur : BitVec 12) :
    (encode (.setnGlide note dur)).toNat = 0x40000000 + dur.toNat * 0x10000 + note.toNat := by
  simp only [encode, toNat_append_eq, BitVec.toNat_ofNat]
  omega

@[simp] theorem encode_wroff_toNat (v16 : Half) : (encode (.wroff v16)).toNat = 0x50000000 + v16.toNat :=
  toNat_op_operand 0x5#4 12 v16

@[simp] theorem encode_wrfold_toNat (v11 : BitVec 11) : (encode (.wrfold v11)).toNat = 0x60000000 + v11.toNat :=
  toNat_op_operand 0x6#4 17 v11

@[simp] theorem encode_lkcode_toNat (code : BitVec 10) : (encode (.lkcode code)).toNat = 0x70000000 + code.toNat :=
  toNat_op_operand 0x7#4 18 code

@[simp] theorem encode_lknote_toNat (note : BitVec 7) : (encode (.lknote note)).toNat = 0x80000000 + note.toNat :=
  toNat_op_operand 0x8#4 21 note

@[simp] theorem encode_rdreg_toNat (reg : BitVec 4) : (encode (.rdreg reg)).toNat = 0x90000000 + reg.toNat :=
  toNat_op_operand 0x9#4 24 reg

/-- Settles O6, operation by operation. -/
theorem encodeIsTheStatementWord : Obligations.EncodeIsTheStatementWord :=
  ⟨encode_nop_toNat, encode_settImm_toNat, encode_settGlide_toNat, encode_setnImm_toNat, encode_setnGlide_toNat,
    encode_wroff_toNat, encode_wrfold_toNat, encode_lkcode_toNat, encode_lknote_toNat, encode_rdreg_toNat, rfl⟩

/-! ### The operands of statements -/

/-- The operands of an operation fit their fields (R79, R85). -/
theorem toStmt_wellFormed (i : Instr) : i.toStmt.wellFormed = true := by
  cases i with
  | nop => exact Laws.WellFormed.nop
  | settImm target => exact Laws.WellFormed.settImm target
  | settGlide target dur => exact Laws.WellFormed.settGlide target dur
  | setnImm note => exact Laws.WellFormed.setnImm note
  | setnGlide note dur => exact Laws.WellFormed.setnGlide note dur
  | wroff v16 => exact Laws.WellFormed.wroff v16
  | wrfold v11 => exact Laws.WellFormed.wrfold v11
  | lkcode code => exact Laws.WellFormed.lkcode code
  | lknote note => exact Laws.WellFormed.lknote note
  | rdreg reg => exact Laws.WellFormed.rdreg reg
  | tick => exact Laws.WellFormed.tick

theorem RegName.number_le (r : RegName) : r.number ≤ 12 := by
  cases r <;> decide

end Sys2Proof

namespace Sys2Proof.Machine

/-! ### The assembler: which statements it refuses, and what it gives for the others (R85) -/

theorem assemble_of_wellFormed (st : Stmt) (h : st.wellFormed = true) : assemble st = some (expand st) :=
  if_pos h

/-- A statement is refused exactly when an operand does not fit its field (93 I14). -/
theorem assemble_eq_none_iff (st : Stmt) : assemble st = none ↔ st.wellFormed = false := by
  simp [assemble]

theorem refuses_one_operand_iff {st : Stmt} {a bound : Nat} (h : st.wellFormed = decide (a ≤ bound)) :
    assemble st = none ↔ bound < a := by
  rw [assemble_eq_none_iff, h, decide_eq_false_iff_not, Nat.not_le]

theorem refuses_two_operands_iff {st : Stmt} {a b bound bound' : Nat}
    (h : st.wellFormed = (decide (a ≤ bound) && decide (b ≤ bound'))) :
    assemble st = none ↔ bound < a ∨ bound' < b := by
  rw [assemble_eq_none_iff, h, Bool.and_eq_false_iff, decide_eq_false_iff_not, decide_eq_false_iff_not, Nat.not_le,
    Nat.not_le]

theorem statementWord_eq {op dur v : Nat} {w : Word} (h : w.toNat = op * 0x10000000 + dur * 0x10000 + v) :
    statementWord op dur v = w := by
  rw [statementWord, ← h, BitVec.ofNat_toNat, BitVec.setWidth_eq]

/-- The statement of an operation expands to the operation's word. -/
theorem expand_toStmt (i : Instr) : expand i.toStmt = [encode i] := by
  cases i with
  | tick => rfl
  | _ => exact congrArg (fun w => [w]) (statementWord_eq (by simp [RegOperand.number]))

/-- The statement of an operation assembles to the operation's word. -/
theorem assemble_toStmt (i : Instr) : assemble i.toStmt = some [encode i] := by
  rw [assemble_of_wellFormed _ (toStmt_wellFormed i), expand_toStmt]

/-- A register name stands for its number (R38, R85). -/
theorem assemble_rdreg_name (r : RegName) :
    assemble (.rdreg (.name r)) = some [encode (.rdreg (BitVec.ofNat 4 r.number))] := by
  have hreg : (BitVec.ofNat 4 r.number).toNat = r.number := Nat.mod_eq_of_lt (by have := r.number_le; omega)
  calc assemble (.rdreg (.name r))
      = assemble (.rdreg (.num r.number)) := rfl
    _ = assemble (Instr.rdreg (BitVec.ofNat 4 r.number)).toStmt := by rw [Instr.toStmt, hreg]
    _ = some [encode (.rdreg (BitVec.ofNat 4 r.number))] := assemble_toStmt _

theorem assemble_word (w : Word) : assemble (.word w.toNat) = some [w] := by
  have hfits : (Stmt.word w.toNat).wellFormed = true := decide_eq_true (Nat.le_of_lt_succ w.isLt)
  rw [assemble_of_wellFormed _ hfits, expand, BitVec.ofNat_toNat, BitVec.setWidth_eq]

/-- Settles O11: the words of operations, register names and `.word`, and each refusal by the operands its statement
checks. -/
theorem assemblerAgreesWithEncode : Obligations.AssemblerAgreesWithEncode := by
  refine ⟨assemble_toStmt, fun target => ?settImm, fun target dur => ?settGlide, fun note => ?setnImm,
    fun note dur => ?setnGlide, fun value => ?wroff, fun value => ?wrfold, fun code => ?lkcode, fun note => ?lknote,
    fun n => ?rdreg, assemble_rdreg_name, assemble_word, fun w => ?word, fun target dur => ?sett,
    fun note dur => ?setn, fun knob cv => ?fold⟩
  case settImm | setnImm | wroff | wrfold | lkcode | lknote | rdreg | word => exact refuses_one_operand_iff rfl
  case settGlide | setnGlide | sett | setn | fold => exact refuses_two_operands_iff rfl

/-! ### Pseudo-instructions (R86) -/

/-- `SETT` assembles as SETT.IMM at duration 0, as SETT.GLIDE otherwise. -/
theorem assemble_sett (target dur : Nat) :
    assemble (.sett target dur) = assemble (if dur = 0 then .settImm target else .settGlide target dur) := by
  by_cases h : dur = 0 <;> simp [assemble, Stmt.wellFormed, expand, h]

/-- `SETN` assembles as SETN.IMM at duration 0, as SETN.GLIDE otherwise. -/
theorem assemble_setn (note dur : Nat) :
    assemble (.setn note dur) = assemble (if dur = 0 then .setnImm note else .setnGlide note dur) := by
  by_cases h : dur = 0 <;> simp [assemble, Stmt.wellFormed, expand, h]

/-- `FOLD` assembles as WRFOLD of the sum, which fits its field. -/
theorem assemble_fold (knob cv : Nat) (hknob : knob ≤ 1023) (hcv : cv ≤ 1023) :
    assemble (.fold knob cv) = assemble (.wrfold (knob + cv)) := by
  have hsum : knob + cv ≤ 2047 := by omega
  simp [assemble, Stmt.wellFormed, expand, hknob, hcv, hsum]

/-- A duration field is 0 exactly when its number is. -/
theorem ite_dur_toStmt (dur : BitVec 12) (imm glide : Instr) :
    (if dur.toNat = 0 then imm.toStmt else glide.toStmt) = (if dur = 0 then imm else glide).toStmt := by
  have hzero : dur.toNat = 0 ↔ dur = 0 := BitVec.toNat_inj (y := 0)
  simp only [hzero, apply_ite Instr.toStmt]

/-- A glide of zero duration is an Immediate set-target (R120). -/
theorem rampSetTarget_glide_zero (T : Half) (s : State) : rampSetTarget T 0 true s = rampSetTarget T 0 false s :=
  (rampSetTarget_immediate T 0 true s (.inr rfl)).trans (rampSetTarget_immediate T 0 false s (.inl rfl)).symm

/-- The sum of two ten-bit operands fits eleven bits. -/
theorem fold_sum_toNat (knob cv : BitVec 10) :
    (knob.setWidth 11 + cv.setWidth 11).toNat = knob.toNat + cv.toNat := by
  simp only [BitVec.toNat_add, BitVec.toNat_setWidth]
  omega

/-- Settles O12: each pseudo-instruction assembles as the statement of the operation it stands for. -/
theorem pseudoInstructionsExpand : Obligations.PseudoInstructionsExpand := by
  refine ⟨fun target dur => ?sett, fun note dur => ?setn, fun target s => ?zeroTarget, fun note s => ?zeroNote,
    fun knob cv => ?fold, fun n => assemble_of_wellFormed (.ticks n) rfl⟩
  case sett =>
    rw [assemble_sett]
    exact (congrArg assemble (ite_dur_toStmt dur (.settImm target) (.settGlide target dur))).trans (assemble_toStmt _)
  case setn =>
    rw [assemble_setn]
    exact (congrArg assemble (ite_dur_toStmt dur (.setnImm note) (.setnGlide note dur))).trans (assemble_toStmt _)
  case zeroTarget => exact congrArg Host.Outcome.next (rampSetTarget_glide_zero target s)
  case zeroNote => exact congrArg Host.Outcome.next (rampSetTarget_glide_zero (lookupByMidiNote s.params note.toNat) s)
  case fold =>
    rw [assemble_fold _ _ (by omega) (by omega), ← fold_sum_toNat]
    exact assemble_toStmt (.wrfold _)

end Sys2Proof.Machine

/-! SUPPORT. The pitch tables: what a lookup reads (R100, R101), its laws for every legal table (R103), and the two
lookup commands (R104, R105). -/

namespace Sys2Proof.Machine

/-! ### The clamp of a note and its table index (R101) -/

theorem clamp_of_le {x lo hi : Nat} (h : lo ≤ hi) (hx : x ≤ lo) : clamp x lo hi = lo := by
  rw [clamp, max_eq_right hx, min_eq_left h]

theorem clamp_of_ge {x lo hi : Nat} (hx : hi ≤ x) : clamp x lo hi = hi :=
  min_eq_right (le_max_of_le_left hx)

theorem clamp_of_mem {x lo hi : Nat} (hlo : lo ≤ x) (hhi : x ≤ hi) : clamp x lo hi = x := by
  rw [clamp, max_eq_left hlo, min_eq_left hhi]

theorem clamp_mono {x y : Nat} (lo hi : Nat) (h : x ≤ y) : clamp x lo hi ≤ clamp y lo hi :=
  min_le_min_right hi (max_le_max_right lo h)

theorem clamp_clamp {lo hi : Nat} (x : Nat) (h : lo ≤ hi) : clamp (clamp x lo hi) lo hi = clamp x lo hi :=
  clamp_of_mem (le_min (le_max_right x lo) h) (min_le_right _ hi)

theorem noteIndex_clamp (note : Nat) : noteIndex (clamp note 24 84) = noteIndex note :=
  Fin.ext (congrArg (· - 24) (clamp_clamp note (by decide)))

theorem noteIndex_of_clamp {note j : Nat} (hj : j < 61) (h : clamp note 24 84 = 24 + j) :
    noteIndex note = ⟨j, hj⟩ :=
  Fin.ext (Nat.sub_eq_of_eq_add' h)

theorem noteIndex_mono : Monotone noteIndex :=
  fun _ _ h => Nat.sub_le_sub_right (clamp_mono 24 84 h) 24

/-! ### What a lookup reads (R100, R101) -/

theorem lookupByCode_eq (p : Params) (code : BitVec 10) : lookupByCode p code = p.pitchTable[code.toNat] := rfl

/-- Widening an entry of `MIDI_TABLE` to 16 bits and reading its ten low bits back gives the code it holds. -/
theorem lookupByMidiNote_eq (p : Params) (note : Nat) :
    lookupByMidiNote p note = lookupByCode p p.midiTable[(noteIndex note).val] :=
  congrArg (lookupByCode p) (BitVec.setWidth_setWidth_of_le _ (by decide))

theorem lookupByMidiNote_of_clamp (p : Params) {note j : Nat} (hj : j < 61) (h : clamp note 24 84 = 24 + j) :
    lookupByMidiNote p note = p.pitchTable[(p.midiTable[j]).toNat] := by
  simp only [lookupByMidiNote_eq, noteIndex_of_clamp hj h, lookupByCode_eq]

/-- Settles O31: inside 24..84 the clamp keeps the note, outside it gives the nearer bound. -/
theorem lookupsReadTheTables : Obligations.LookupsReadTheTables := by
  refine fun p => ⟨fun c hc => ?code, fun j hj => ?inside, fun note hnote => ?below, fun note hnote => ?above⟩
  case code => simp only [lookupByCode_eq, BitVec.toNat_ofNat, Nat.mod_eq_of_lt hc]
  case inside => exact lookupByMidiNote_of_clamp p hj (clamp_of_mem (by omega) (by omega))
  case below => exact lookupByMidiNote_of_clamp p (j := 0) (by decide) (clamp_of_le (by decide) hnote)
  case above => exact lookupByMidiNote_of_clamp p (j := 60) (by decide) (clamp_of_ge hnote)

/-! ### The laws of the lookups for legal tables (R103) -/

/-- Neighbouring entries in order put the whole of `PITCH_TABLE` in order (R6). -/
theorem pitchTable_mono {p : Params} (h : p.Legal) : Monotone fun c : Fin 1024 => (p.pitchTable[c.val]).toNat := by
  obtain ⟨-, hpitch, -⟩ := h
  exact Fin.monotone_iff_le_succ.mpr hpitch

/-- Neighbouring entries in strict order put the whole of `MIDI_TABLE` in strict order (R6). -/
theorem midiTable_strictMono {p : Params} (h : p.Legal) : StrictMono fun j : Fin 61 => (p.midiTable[j.val]).toNat := by
  obtain ⟨-, -, hmidi⟩ := h
  exact Fin.strictMono_iff_lt_succ.mpr hmidi

theorem lookupByCode_mono {p : Params} (h : p.Legal) {c d : BitVec 10} (hcd : c ≤ d) :
    lookupByCode p c ≤ lookupByCode p d :=
  pitchTable_mono h (a := c.toFin) (b := d.toFin) hcd

theorem lookupByMidiNote_mono {p : Params} (h : p.Legal) {a b : Nat} (hab : a ≤ b) :
    lookupByMidiNote p a ≤ lookupByMidiNote p b := by
  rw [lookupByMidiNote_eq, lookupByMidiNote_eq]
  exact lookupByCode_mono h ((midiTable_strictMono h).monotone (noteIndex_mono hab))

theorem lookupByMidiNote_clamp (p : Params) (note : Nat) :
    lookupByMidiNote p (clamp note 24 84) = lookupByMidiNote p note := by
  simp only [lookupByMidiNote_eq, noteIndex_clamp]

/-- Settles O32: notes are monotone through the clamp, `MIDI_TABLE` and `PITCH_TABLE` in turn. -/
theorem lookupsAreMonotone : Obligations.LookupsAreMonotone := fun p h =>
  ⟨fun _ _ => lookupByCode_mono h, fun _ _ => lookupByMidiNote_mono h, fun n => (lookupByMidiNote_clamp p n).symm⟩

/-! ### The lookup commands (R104, R105) -/

/-- Settles O33: both commands write `RESULT` alone, and 32 bits hold the whole increment of their lookup. -/
theorem lookupCommandsWriteTheResult : Obligations.LookupCommandsWriteTheResult := by
  refine ⟨fun code s => ⟨_, exec_lkcode code s, ?code⟩, fun note s => ⟨_, exec_lknote note s, ?note⟩⟩
  case code | note => exact BitVec.toNat_setWidth_of_le (by decide)

end Sys2Proof.Machine

/-! SUPPORT. The portamento: the tick count of a glide (R121), the set-target commands (R124 to R127), a TICK's advance
(R122), and the laws of a ramp over any run of operations that keeps it (R123, R128, R129). -/

namespace Sys2Proof.Machine

/-! ### The tick count of a glide (R121) -/

/-- The tick count is the least that covers the duration. -/
theorem glideTicks_le_iff (hz D n : Nat) : glideTicks hz D ≤ n ↔ D * hz ≤ 1000 * n := by
  unfold glideTicks ceilDiv
  omega

/-- `RTOTAL` and `RREMAIN` hold the whole tick count. -/
theorem ofNat_glideTicks_toNat (hz D : Nat) (hhz : 1 ≤ hz ∧ hz ≤ 1000000) (hD : 1 ≤ D ∧ D ≤ 4095) :
    (BitVec.ofNat 32 (glideTicks hz D)).toNat = glideTicks hz D := by
  obtain ⟨-, hmax⟩ := glideTicks_range hz D hhz hD
  exact Nat.mod_eq_of_lt (by omega)

/-- Settles O45, from the ceiling and its range for legal rates and durations. -/
theorem glideTicksBounds : Obligations.GlideTicksBounds := by
  intro hz D hlow hhigh hD hD'
  obtain ⟨hmin, hmax⟩ := glideTicks_range hz D ⟨hlow, hhigh⟩ ⟨hD, hD'⟩
  exact ⟨glideTicks_le_iff hz D, hmin, hmax, ofNat_glideTicks_toNat hz D ⟨hlow, hhigh⟩ ⟨hD, hD'⟩⟩

/-! ### The set-target commands (R124 to R127) -/

/-- SETN.IMM is SETT.IMM of its note's increment (R126). -/
theorem exec_setnImm_eq_settImm (note : BitVec 7) (s : State) :
    exec (.setnImm note) s = exec (.settImm (lookupByMidiNote s.params note.toNat)) s := rfl

/-- SETN.GLIDE is SETT.GLIDE to its note's increment (R127). -/
theorem exec_setnGlide_eq_settGlide (note : BitVec 7) (dur : BitVec 12) (s : State) :
    exec (.setnGlide note dur) s = exec (.settGlide (lookupByMidiNote s.params note.toNat) dur) s := rfl

/-- Settles O24, by the Immediate set-target. -/
theorem settImmSnapsToItsTarget : Obligations.SettImmSnapsToItsTarget := fun target s =>
  (exec_settImm target s).trans (congrArg Host.Outcome.next (rampSetTarget_immediate target 0 false s (.inl rfl)))

/-- Settles O26, from O24 for the note's increment. -/
theorem setnImmSnapsToItsNote : Obligations.SetnImmSnapsToItsNote := fun note s =>
  (exec_setnImm_eq_settImm note s).trans (settImmSnapsToItsTarget _ s)

/-- A duration field other than 0 is a duration R121 speaks of. -/
theorem dur_range {dur : BitVec 12} (h : dur ≠ 0) : 1 ≤ dur.toNat ∧ dur.toNat ≤ 4095 := by
  have hne : dur.toNat ≠ 0 := fun h0 => h (BitVec.eq_of_toNat_eq h0)
  omega

/-- A glide of duration 0 snaps to its target (R120). -/
theorem rampSetTarget_glide_of_dur_zero (T : Half) {dur : BitVec 12} (s : State) (h : dur = 0) :
    rampSetTarget T dur.toNat true s =
      { s with rtarget := T, rcurrent := T, rstart := T, rtotal := 0, rremain := 0, rmode := .immediate } :=
  rampSetTarget_immediate T dur.toNat true s (.inr (congrArg BitVec.toNat h))

/-- A glide of another duration starts a ramp over the least tick count that covers it (R120, R121). -/
theorem rampSetTarget_glide_of_dur_ne_zero (T : Half) {dur : BitVec 12} (s : State) (h : dur ≠ 0) :
    ∃ n : BitVec 32, rampSetTarget T dur.toNat true s =
        { s with rtarget := T, rstart := s.rcurrent, rtotal := n, rremain := n, rmode := .timedLinear } ∧
      (s.params.Legal → dur.toNat * s.params.tickHz ≤ 1000 * n.toNat ∧
        1000 * n.toNat < dur.toNat * s.params.tickHz + 1000) := by
  have hdur := dur_range h
  refine ⟨_, rampSetTarget_glide T dur.toNat s (by omega), fun hlegal => ?_⟩
  have hcover := glideTicks_le_iff s.params.tickHz dur.toNat (glideTicks s.params.tickHz dur.toNat)
  have hleast := glideTicks_le_iff s.params.tickHz dur.toNat (glideTicks s.params.tickHz dur.toNat - 1)
  rw [ofNat_glideTicks_toNat _ _ hlegal.1 hdur]
  omega

/-- Settles O25, by the two cases of the duration. -/
theorem settGlideStartsARamp : Obligations.SettGlideStartsARamp := by
  refine fun target dur s => ⟨fun hzero => ?snap, fun hne => ?ramp⟩
  case snap => rw [exec_settGlide, rampSetTarget_glide_of_dur_zero target s hzero]
  case ramp =>
    obtain ⟨n, hramp, hleast⟩ := rampSetTarget_glide_of_dur_ne_zero target s hne
    exact ⟨n, by rw [exec_settGlide, hramp], hleast⟩

/-- Settles O27, from O25 for the note's increment. -/
theorem setnGlideStartsARamp : Obligations.SetnGlideStartsARamp := by
  intro note dur s
  rw [exec_setnGlide_eq_settGlide]
  exact settGlideStartsARamp _ dur s

/-! ### One advance (R122) -/

/-- Settles O36: an idle ramp stays; an active one moves to the next point of its line, and the invariant after the
advance says that a ramp with nothing left is at its target. -/
theorem tickAdvancesTheRamp : Obligations.TickAdvancesTheRamp := by
  refine fun s hinv => ⟨tickStep s, exec_tick s, fun hidle => ?idle, fun hremain hcurrent => ?active⟩
  case idle => simp [rampAdvance_idle s hidle]
  case active =>
    have hpred := remain_pred_toNat s hremain
    have hle := hinv.ramp.remain_le_total
    have hremainNat : s.rremain.toNat ≠ 0 := fun h0 => hremain (BitVec.eq_of_toNat_eq h0)
    have hend := (rampAdvance_rampOk s hinv.ramp).idle_at_target
    obtain ⟨hpoint, hlow, hhigh⟩ := interpolate_toNat s.rstart s.rtarget
      ((s.rtotal.toNat : Int) - (s.rremain - 1).toNat) s.rtotal.toNat (by omega) (by omega) (by omega)
    rw [rampAdvance_rtarget] at hend
    rw [tickStep_rremain, tickStep_rcurrent]
    rw [rampAdvance_active s hremain hcurrent] at hend ⊢
    exact ⟨(by omega : (s.rremain - 1).toNat + 1 = s.rremain.toNat), hpoint, hlow, hhigh, hend⟩

/-! ### The points of a ramp (R122, R128) -/

/-- A truncated quotient times its divisor is no further from 0 than the dividend. -/
theorem abs_tdiv_mul_le (a : Int) (N : Nat) : |a.tdiv N| * N ≤ |a| := by
  rw [Int.abs_eq_natAbs, Int.abs_eq_natAbs, Int.natAbs_tdiv, Int.natAbs_natCast]
  exact_mod_cast Nat.div_mul_le_self a.natAbs N

/-- The increment `k` ticks after a glide of `N` ticks from `S` to `T` began (R122, R128), `T` past its end. -/
def rampPoint (S T : Half) (N k : Nat) : Half := interpolate S T ((min k N : Nat) : Int) N

section
variable {S T : Half} {N : Nat}

theorem rampPoint_toNat (hN : N ≠ 0) (k : Nat) :
    ((rampPoint S T N k).toNat : Int) =
      S.toNat + (((T.toNat : Int) - S.toNat) * (min k N : Nat)).tdiv N :=
  (interpolate_toNat S T (min k N : Nat) N (by omega) (by omega) hN).1

theorem rampPoint_of_le {k : Nat} (hN : N ≠ 0) (hk : N ≤ k) : rampPoint S T N k = T := by
  rw [rampPoint, Nat.min_eq_right hk]
  exact interpolate_end S T N hN

theorem rampPoint_zero (hN : N ≠ 0) : rampPoint S T N 0 = S := by
  have hpoint := rampPoint_toNat (S := S) (T := T) hN 0
  rw [Nat.zero_min, Nat.cast_zero, mul_zero, Int.zero_tdiv, add_zero] at hpoint
  exact BitVec.eq_of_toNat_eq (Int.ofNat_inj.mp hpoint)

/-- A ramp with no distance to go stays where it is. -/
theorem rampPoint_self (hN : N ≠ 0) (k : Nat) : rampPoint S S N k = S := by
  have hpoint := rampPoint_toNat (S := S) (T := S) hN k
  rw [sub_self, zero_mul, Int.zero_tdiv, add_zero] at hpoint
  exact BitVec.eq_of_toNat_eq (Int.ofNat_inj.mp hpoint)

/-- The part of the distance covered puts the points of a ramp in order. -/
theorem rampPoint_le_of_part_le {k j : Nat} (hN : N ≠ 0)
    (h : ((T.toNat : Int) - S.toNat) * (min k N : Nat) ≤ ((T.toNat : Int) - S.toNat) * (min j N : Nat)) :
    (rampPoint S T N k).toNat ≤ (rampPoint S T N j).toNat := by
  have hdiv := Int.tdiv_le_tdiv (by omega : (0 : Int) < N) h
  have hk := rampPoint_toNat (S := S) (T := T) hN k
  have hj := rampPoint_toNat (S := S) (T := T) hN j
  omega

theorem rampPoint_mono (hN : N ≠ 0) (h : S ≤ T) : Monotone fun k => (rampPoint S T N k).toNat := by
  have hd : 0 ≤ (T.toNat : Int) - S.toNat := sub_nonneg.mpr (Int.ofNat_le.mpr h)
  exact fun k j hkj => rampPoint_le_of_part_le hN (mul_le_mul_of_nonneg_left (by omega) hd)

theorem rampPoint_anti (hN : N ≠ 0) (h : T ≤ S) : Antitone fun k => (rampPoint S T N k).toNat := by
  have hd : (T.toNat : Int) - S.toNat ≤ 0 := sub_nonpos.mpr (Int.ofNat_le.mpr h)
  exact fun k j hkj => rampPoint_le_of_part_le hN (mul_le_mul_of_nonpos_left (by omega) hd)

/-- A ramp upward lies between its ends, later points above earlier ones. -/
theorem rampPoint_rises {k j : Nat} (hN : N ≠ 0) (h : S ≤ T) (hkj : k ≤ j) :
    S ≤ rampPoint S T N k ∧ rampPoint S T N k ≤ rampPoint S T N j ∧ rampPoint S T N j ≤ T := by
  have hmono := rampPoint_mono hN h
  have hfirst := hmono (Nat.zero_le k)
  have hlast := hmono (le_max_left j N)
  simp only [rampPoint_zero hN] at hfirst
  simp only [rampPoint_of_le hN (le_max_right j N)] at hlast
  exact ⟨hfirst, hmono hkj, hlast⟩

/-- A ramp downward lies between its ends, later points below earlier ones. -/
theorem rampPoint_falls {k j : Nat} (hN : N ≠ 0) (h : T ≤ S) (hkj : k ≤ j) :
    T ≤ rampPoint S T N j ∧ rampPoint S T N j ≤ rampPoint S T N k ∧ rampPoint S T N k ≤ S := by
  have hanti := rampPoint_anti hN h
  have hfirst := hanti (Nat.zero_le k)
  have hlast := hanti (le_max_left j N)
  simp only [rampPoint_zero hN] at hfirst
  simp only [rampPoint_of_le hN (le_max_right j N)] at hlast
  exact ⟨hlast, hanti hkj, hfirst⟩

/-- After `k` of `N` ticks a ramp has covered at most `k` of `N` parts of its distance (R128). -/
theorem rampPoint_dist_mul_le {k : Nat} (hN : N ≠ 0) (hk : k ≤ N) :
    |((rampPoint S T N k).toNat : Int) - S.toNat| * N ≤ |(T.toNat : Int) - S.toNat| * k := by
  have hbound := abs_tdiv_mul_le (((T.toNat : Int) - S.toNat) * k) N
  rwa [rampPoint_toNat hN, Nat.min_eq_left hk, add_sub_cancel_left, ← Nat.abs_cast k, ← abs_mul, Nat.abs_cast]

/-- A ramp that has a distance to go reaches its target at its last tick and not before. -/
theorem rampPoint_eq_target_iff {k : Nat} (hN : N ≠ 0) (hne : S ≠ T) : rampPoint S T N k = T ↔ N ≤ k := by
  refine ⟨fun hpoint => ?_, rampPoint_of_le hN⟩
  by_contra hlt
  have hdist : 0 < |(T.toNat : Int) - S.toNat| :=
    abs_pos.mpr fun h0 => hne (BitVec.eq_of_toNat_eq (by omega))
  have hle := rampPoint_dist_mul_le (S := S) (T := T) hN (Nat.le_of_not_le hlt)
  rw [hpoint] at hle
  have hNk := le_of_mul_le_mul_left hle hdist
  omega

end

/-! ### A ramp in progress -/

/-- The state is `k` TICKs into a glide of `N` ticks from `S` to `T`. A glide to the increment it starts at ends at its
first TICK, so only one with a distance to go counts its ticks in `RREMAIN` (R122). -/
structure State.OnRamp (s : State) (S T : Half) (N k : Nat) : Prop where
  length_ne_zero : N ≠ 0
  start : s.rstart = S
  target : s.rtarget = T
  total : s.rtotal.toNat = N
  point : s.rcurrent = rampPoint S T N k
  remain : S ≠ T → s.rremain.toNat = N - k

/-- A glide begins a ramp at the present increment (R120). -/
theorem rampSetTarget_onRamp (T : Half) (D : Nat) (s : State) (hlegal : s.params.Legal) (hD : 1 ≤ D ∧ D ≤ 4095) :
    (rampSetTarget T D true s).OnRamp s.rcurrent T (glideTicks s.params.tickHz D) 0 := by
  have hlength : glideTicks s.params.tickHz D ≠ 0 := by
    have := glideTicks_range s.params.tickHz D hlegal.1 hD
    omega
  have hfits := ofNat_glideTicks_toNat s.params.tickHz D hlegal.1 hD
  rw [rampSetTarget_glide T D s (by omega)]
  exact ⟨hlength, rfl, rfl, hfits, (rampPoint_zero hlength).symm, fun _ => hfits⟩

section
variable {s t : State} {S T : Half} {N k : Nat}

/-- A ramp with nothing left to count, or at its target, stays there: it has ended, or had no distance to go. -/
theorem State.OnRamp.ended_or_no_distance (h : s.OnRamp S T N k) (hidle : s.rremain = 0 ∨ s.rcurrent = s.rtarget) :
    S = T ∨ N ≤ k := by
  refine or_iff_not_imp_left.mpr fun hne => hidle.elim (fun hzero => ?_) fun hreached => ?_
  · have hzeroNat : s.rremain.toNat = 0 := congrArg BitVec.toNat hzero
    have hcount := h.remain hne
    omega
  · rw [h.point, h.target] at hreached
    exact (rampPoint_eq_target_iff h.length_ne_zero hne).mp hreached

/-- An advance leads to the next point: an idle ramp is where every later point is. -/
theorem State.OnRamp.advance (h : s.OnRamp S T N k) : (rampAdvance s).OnRamp S T N (k + 1) := by
  have hN := h.length_ne_zero
  by_cases hidle : s.rremain = 0 ∨ s.rcurrent = s.rtarget
  · have hstay := h.ended_or_no_distance hidle
    have hnext : rampPoint S T N k = rampPoint S T N (k + 1) := by
      rcases hstay with rfl | hend
      · rw [rampPoint_self hN, rampPoint_self hN]
      · rw [rampPoint_of_le hN hend, rampPoint_of_le hN (by omega)]
    rw [rampAdvance_idle s hidle]
    refine ⟨hN, h.start, h.target, h.total, h.point.trans hnext, fun hne => ?_⟩
    have hend := hstay.resolve_left hne
    exact (Nat.sub_eq_zero_of_le (Nat.le_succ_of_le hend)).symm
  · obtain ⟨hremain, hcurrent⟩ := not_or.mp hidle
    have hne : S ≠ T := by
      rintro rfl
      exact hcurrent (by rw [h.point, h.target, rampPoint_self hN])
    have hcount := h.remain hne
    have hpred := remain_pred_toNat s hremain
    have hremainNat : s.rremain.toNat ≠ 0 := fun h0 => hremain (BitVec.eq_of_toNat_eq h0)
    have hpoint : (N : Int) - (s.rremain - 1).toNat = (min (k + 1) N : Nat) := by omega
    rw [rampAdvance_active s hremain hcurrent, h.start, h.target, h.total, hpoint]
    exact ⟨hN, rfl, rfl, h.total, rfl, fun _ => hpred.trans (by omega)⟩

/-- What a ramp in progress is does not depend on the other registers. -/
theorem State.OnRamp.congr (h : s.OnRamp S T N k) (hstart : t.rstart = s.rstart) (htarget : t.rtarget = s.rtarget)
    (htotal : t.rtotal = s.rtotal) (hcurrent : t.rcurrent = s.rcurrent) (hremain : t.rremain = s.rremain) :
    t.OnRamp S T N k where
  length_ne_zero := h.length_ne_zero
  start := hstart.trans h.start
  target := htarget.trans h.target
  total := htotal ▸ h.total
  point := hcurrent.trans h.point
  remain := hremain ▸ h.remain

theorem State.OnRamp.after_tick (h : s.OnRamp S T N k) : (tickStep s).OnRamp S T N (k + 1) :=
  h.advance.congr (by simp) (by simp) (by simp) (by simp) (by simp)

/-- An operation that begins no new ramp takes the ramp one TICK further, or leaves it. -/
theorem State.OnRamp.after_exec {i : Instr} (h : s.OnRamp S T N k) (hi : isSetTarget i = false)
    (hexec : exec i s = .next t) : t.OnRamp S T N (k + [i].count .tick) := by
  by_cases htick : i = .tick
  · subst htick
    cases hexec
    exact h.after_tick
  · obtain ⟨htarget, -, hstart, htotal⟩ := exec_keeps_ramp_line hexec hi
    obtain ⟨hcurrent, hremain⟩ := exec_keeps_ramp_point hexec htick hi
    rw [List.count_eq_zero.mpr (by simpa using Ne.symm htick)]
    exact h.congr hstart htarget htotal hcurrent hremain

end

/-- Operations that begin no new ramp take the ramp as many TICKs further as there are among them. -/
theorem State.OnRamp.after_execAll {S T : Half} {N : Nat} (is : List Instr) {k : Nat} {s : State} (h : s.OnRamp S T N k)
    (his : ∀ i ∈ is, isSetTarget i = false) :
    ∃ t, execAll is s = .next t ∧ t.OnRamp S T N (k + is.count .tick) := by
  induction is generalizing s k with
  | nil => exact ⟨s, rfl, h⟩
  | cons i is ih =>
    obtain ⟨hi, his⟩ := List.forall_mem_cons.mp his
    obtain ⟨u, hu⟩ := exec_completes i s
    obtain ⟨t, ht, hramp⟩ := ih (h.after_exec hi hu) his
    have hcount : (i :: is).count .tick = [i].count .tick + is.count .tick := List.count_append (l₁ := [i])
    rw [execAll_cons i is s u hu, hcount, ← Nat.add_assoc]
    exact ⟨t, ht, hramp⟩

/-! ### Laws of the ramp (R123, R128, R129) -/

/-- Settles O46: past its last tick a ramp is at its target, and so it is one advance further. -/
theorem rampConverges : Obligations.RampConverges := by
  intro s T D is hlegal hD hD' his hticks
  obtain ⟨t, ht, hramp⟩ := (rampSetTarget_onRamp T D s hlegal ⟨hD, hD'⟩).after_execAll is his
  rw [Nat.zero_add] at hramp
  exact ⟨t, ht, hramp.point.trans (rampPoint_of_le hramp.length_ne_zero hticks),
    hramp.advance.point.trans (rampPoint_of_le hramp.length_ne_zero (Nat.le_succ_of_le hticks))⟩

/-- Settles O47: `RCURRENT` is the point of the ramp at the number of TICKs so far, and the points are in order from
the start to the target. -/
theorem rampIsLinear : Obligations.RampIsLinear := by
  intro s T D is js hlegal hD hD' hkeep hticks
  obtain ⟨his, hjs⟩ := List.forall_mem_append.mp hkeep
  obtain ⟨t, ht, htramp⟩ := (rampSetTarget_onRamp T D s hlegal ⟨hD, hD'⟩).after_execAll is his
  obtain ⟨u, hu, huramp⟩ := htramp.after_execAll js hjs
  rw [Nat.zero_add] at htramp huramp
  have hN := htramp.length_ne_zero
  generalize glideTicks s.params.tickHz D = N at *
  generalize is.count .tick = k at *
  generalize js.count .tick = j at *
  have hpoint := rampPoint_toNat (S := s.rcurrent) (T := T) hN k
  rw [Nat.min_eq_left (by omega), ← htramp.point] at hpoint
  refine ⟨t, u, ht, hu, hpoint, ?near, fun hup => ?rises, fun hdown => ?falls, fun hne => ?ends⟩
  case near =>
    rw [hpoint, add_sub_cancel_left]
    obtain ⟨-, -, hnear⟩ :=
      tdiv_part_bounds ((T.toNat : Int) - s.rcurrent.toNat) k N (by omega) (by omega) (by omega)
    exact hnear
  case rises =>
    rw [htramp.point, huramp.point]
    exact rampPoint_rises hN hup (Nat.le_add_right k j)
  case falls =>
    rw [htramp.point, huramp.point]
    exact rampPoint_falls hN hdown (Nat.le_add_right k j)
  case ends =>
    rw [htramp.point, rampPoint_eq_target_iff hN hne]
    omega

/-- SETT.GLIDE keeps the increment, and the TICK after it moves by one part of the distance at most. -/
theorem settGlide_then_tick (T : Half) {dur : BitVec 12} (s : State) (hlegal : s.params.Legal) (hdur : dur ≠ 0) :
    ∃ t u, exec (.settGlide T dur) s = .next t ∧ t.rcurrent = s.rcurrent ∧ exec .tick t = .next u ∧
      |(u.rcurrent.toNat : Int) - s.rcurrent.toNat| * t.rtotal.toNat ≤ |(T.toNat : Int) - s.rcurrent.toNat| := by
  have hramp := rampSetTarget_onRamp T dur.toNat s hlegal (dur_range hdur)
  have hN := hramp.length_ne_zero
  have hstep := rampPoint_dist_mul_le (S := s.rcurrent) (T := T) (k := 1) hN (by omega)
  rw [Nat.cast_one, mul_one, ← hramp.after_tick.point, ← hramp.total] at hstep
  exact ⟨_, _, exec_settGlide T dur s, hramp.point.trans (rampPoint_zero hN), exec_tick _, hstep⟩

/-- Settles O48, the glide to a note from the glide to the note's increment. -/
theorem retargetingIsContinuous : Obligations.RetargetingIsContinuous := by
  refine ⟨fun s T dur => settGlide_then_tick T s, fun s note dur hlegal hdur => ?note⟩
  case note =>
    rw [exec_setnGlide_eq_settGlide]
    exact settGlide_then_tick _ s hlegal hdur

end Sys2Proof.Machine

/-! SUPPORT. The oscillator: the two phases and the follower offset a TICK leaves (R140 to R143, R147), the shape of the
parabolic sine (R144, R145), and the ring modulator (R146). -/

namespace Sys2Proof.Machine

/-! ### The parabola under the sine (R144, R145) -/

/-- The magnitude of the sine as a function of its phase byte (R144). -/
def parabola (b : Nat) : Nat := b * (255 - b) / 128

/-- A byte below the middle of the half-cycle has no larger magnitude than one that is at least as near to the
middle. -/
theorem parabola_le {b c : Nat} (hbc : b ≤ c) (hsum : b + c ≤ 255) : parabola b ≤ parabola c := by
  obtain ⟨k, rfl⟩ := Nat.exists_eq_add_of_le hbc
  obtain ⟨r, hr⟩ := Nat.exists_eq_add_of_le hsum
  have hb : 255 - b = b + k + r := by omega
  have hc : 255 - (b + k) = b + r := by omega
  refine Nat.div_le_div_right ?_
  calc b * (255 - b) = b * (b + r) + b * k := by rw [hb]; ring
    _ ≤ b * (b + r) + (b + r) * k := by gcongr; omega
    _ = (b + k) * (255 - (b + k)) := by rw [hc]; ring

theorem parabola_complement {b : Nat} (h : b ≤ 255) : parabola (255 - b) = parabola b := by
  rw [parabola, parabola, Nat.sub_sub_self h, Nat.mul_comm]

/-- The same for a byte above the middle, by the symmetry. -/
theorem parabola_le_of_ge {b c : Nat} (hb : b ≤ 255) (hcb : c ≤ b) (hsum : 255 ≤ b + c) : parabola b ≤ parabola c := by
  rw [← parabola_complement hb]
  exact parabola_le (by omega) (by omega)

theorem parabola_eq_zero_iff {b : Nat} (h : b ≤ 255) : parabola b = 0 ↔ b = 0 ∨ b = 255 := by
  constructor
  · intro hzero
    by_contra hinner
    have hone : parabola 1 ≤ parabola b := parabola_le (by omega) (by omega)
    exact absurd (hzero ▸ hone) (by decide)
  · rintro (rfl | rfl) <;> rfl

theorem parabola_eq_peak_iff {b : Nat} (h : b ≤ 255) : parabola b = 127 ↔ b = 127 ∨ b = 128 := by
  constructor
  · intro hpeak
    by_contra houter
    have hbelow : parabola b ≤ parabola 126 := by
      rcases Nat.lt_or_ge b 127 with hlow | hhigh
      · exact parabola_le (by omega) (by omega)
      · exact parabola_le_of_ge h (by omega) (by omega)
    exact absurd (hpeak ▸ hbelow) (by decide)
  · rintro (rfl | rfl) <;> rfl

/-! ### The parabolic sine (R144, R145) -/

theorem psin_mag_toNat (p : Half) : (psin p).mag.toNat = parabola (p.toNat / 128 % 256) := by
  obtain ⟨hcomplement, hfits⟩ := byte_times_complement (p.extractLsb' 7 8)
  simp only [psin, BitVec.toNat_ofNat, Nat.shiftRight_eq_div_pow, hcomplement]
  rw [Nat.mod_eq_of_lt hfits, phaseByte_toNat, parabola]

theorem psin_neg_iff_le (p : Half) : (psin p).neg = true ↔ 32768 ≤ p.toNat := by
  rw [psin_neg_iff, BitVec.getLsbD, Nat.testBit_eq_decide_div_mod_eq, decide_eq_true_iff]
  omega

/-- The sine reads bits 15:7 of the phase alone (R144). -/
theorem psin_congr {p q : Half} (h : q.toNat / 128 = p.toNat / 128) : psin q = psin p := by
  have hmag : (psin q).mag = (psin p).mag := BitVec.eq_of_toNat_eq (by rw [psin_mag_toNat, psin_mag_toNat, h])
  have hneg : (psin q).neg = (psin p).neg := by
    rw [Bool.eq_iff_iff, psin_neg_iff_le, psin_neg_iff_le]
    omega
  exact congrArg₂ SignMag.mk hmag hneg

/-- Settles O38, from the magnitude and the polarity in naturals. -/
theorem parabolicSineFormula : Obligations.ParabolicSineFormula := by
  refine fun p => ⟨psin_mag_toNat p, psin_neg_iff_le p, ?value, fun q => psin_congr⟩
  case value =>
    have hneg := psin_neg_iff_le p
    rcases Nat.lt_or_ge p.toNat 32768 with hpositive | hnegative
    · rw [SignMag.value, if_neg (mt hneg.1 hpositive.not_ge), if_pos hpositive]
    · rw [SignMag.value, if_pos (hneg.2 hnegative), if_neg hnegative.not_gt]

/-- Complementing the phase byte reflects the phase within its half-cycle and keeps the magnitude (R145). -/
theorem psin_mag_reflect (p : Half) : (psin (p ^^^ 0x7F80)).mag = (psin p).mag := by
  have hbyte : (p ^^^ 0x7F80).extractLsb' 7 8 = p.extractLsb' 7 8 ^^^ 0xFF#8 := BitVec.extractLsb'_xor
  simp only [psin, hbyte, BitVec.xor_assoc, BitVec.xor_self, BitVec.xor_zero, Nat.mul_comm]

/-- The other half-cycle has the same magnitude and the other polarity (R145). -/
theorem psin_other_half (p : Half) :
    (psin (p ^^^ 0x8000)).mag = (psin p).mag ∧ (psin (p ^^^ 0x8000)).neg = !(psin p).neg := by
  have hbyte : (p ^^^ 0x8000).extractLsb' 7 8 = p.extractLsb' 7 8 :=
    BitVec.extractLsb'_xor.trans (BitVec.xor_zero)
  exact ⟨by simp only [psin, hbyte], BitVec.getLsbD_xor.trans (Bool.xor_true _)⟩

/-- Settles O39: zeros, peaks and order are those of the parabola at the phase byte, the symmetries those of the
phase bits. -/
theorem parabolicSineLaws : Obligations.ParabolicSineLaws := by
  refine ⟨fun p => ?zeros, fun p => ?peaks, psin_mag_reflect, psin_other_half, fun p q hhalf hle => ⟨?rises, ?falls⟩⟩
  case zeros =>
    have hp := p.isLt
    rw [← BitVec.toNat_inj, psin_mag_toNat]
    refine (parabola_eq_zero_iff (by omega)).trans ?_
    omega
  case peaks =>
    have hp := p.isLt
    rw [← BitVec.toNat_inj, psin_mag_toNat]
    refine (parabola_eq_peak_iff (by omega)).trans ?_
    omega
  case rises =>
    intro hq
    rw [psin_mag_toNat, psin_mag_toNat]
    exact parabola_le (by omega) (by omega)
  case falls =>
    intro hp
    rw [psin_mag_toNat, psin_mag_toNat]
    exact parabola_le_of_ge (by omega) (by omega) (by omega)

/-! ### The ring modulator (R146) -/

theorem ring_mag_le (a b : SignMag) : (ring a b).mag.toNat ≤ 126 := by
  have hproduct : a.mag.toNat * b.mag.toNat ≤ 127 * 127 :=
    Nat.mul_le_mul (Nat.le_of_lt_succ a.mag.isLt) (Nat.le_of_lt_succ b.mag.isLt)
  rw [ring_mag_toNat]
  omega

theorem ring_mag_eq_zero {a b : SignMag} (h : a.mag = 0 ∨ b.mag = 0) : (ring a b).mag = 0 := by
  apply BitVec.eq_of_toNat_eq
  rw [ring_mag_toNat]
  rcases h with h | h <;> simp [h]

/-- Settles O40, from the magnitude and the polarity of the ring. -/
theorem ringModulatorLaws : Obligations.RingModulatorLaws := fun a b =>
  ⟨ring_mag_toNat a b, ring_neg a b, ring_mag_le a b, ring_mag_eq_zero, (ring_neg a a).trans (Bool.xor_self a.neg)⟩

/-! ### The phases and the offset of a TICK (R140 to R143) -/

/-- Settles O35: each of the leader, the offset and the follower is the function of R140 to R142, in naturals. -/
theorem tickMovesThePhases : Obligations.TickMovesThePhases := by
  refine fun s => ⟨tickStep s, exec_tick s, ?leader, fun hbelow => ?up, fun habove => ?down, fun hequal => ?still,
    ?follower⟩
  case leader => rw [tickStep_lphase, tickStep_rcurrent, leaderPhase_toNat]
  case up => rw [tickStep_offcur, offsetToward_toNat, if_pos hbelow]
  case down =>
    rw [tickStep_offcur, offsetToward_toNat, if_neg habove.not_gt, if_pos habove]
    omega
  case still =>
    apply BitVec.eq_of_toNat_eq
    rw [tickStep_offcur, offsetToward_toNat, hequal, if_neg (lt_irrefl _), if_neg (lt_irrefl _)]
  case follower => rw [tickStep_fphase, followerPhase_toNat]

/-- Settles O44: the sync and octave laws are the ratio `(256 + OFFCUR) / 256` at 0 and at 256. -/
theorem followerRatioLaws : Obligations.FollowerRatioLaws := by
  refine ⟨followerPhase_ratio, fun l => ?unison, fun l => ?octave, fun o => ?sync,
    fun s => ⟨tickStep s, exec_tick s, tickStep_fphase s⟩⟩
  case unison =>
    apply BitVec.eq_of_toNat_eq
    simp [followerPhase_ratio, Nat.mod_eq_of_lt l.isLt]
  case octave =>
    have hoctave : (256 : Half).toNat = 256 := rfl
    rw [followerPhase_ratio, hoctave]
    omega
  case sync =>
    apply BitVec.eq_of_toNat_eq
    simp [followerPhase_ratio]

/-- A smoothing step takes 1 from the distance to the measured offset while there is one, and stays on its side of it
(R141). -/
theorem offsetToward_dist (a b : Half) :
    |((offsetToward a b).toNat : Int) - b.toNat| = max (|(a.toNat : Int) - b.toNat| - 1) 0 ∧
      0 ≤ (((offsetToward a b).toNat : Int) - b.toNat) * ((a.toNat : Int) - b.toNat) := by
  rw [offsetToward_toNat]
  rcases lt_trichotomy a.toNat b.toNat with hbelow | hequal | habove
  · rw [if_pos hbelow]
    refine ⟨?_, mul_nonneg_of_nonpos_of_nonpos (by omega) (by omega)⟩
    rw [abs_of_nonpos (by omega), abs_of_neg (by omega)]
    omega
  · simp [hequal]
  · rw [if_neg habove.not_gt, if_pos habove]
    refine ⟨?_, mul_nonneg (by omega) (by omega)⟩
    rw [abs_of_nonneg (by omega), abs_of_pos (by omega)]
    omega

/-- Settles O50: the offset step of a TICK is a smoothing step toward an `OFFMEAS` that stays. -/
theorem offsetSmoothingBound : Obligations.OffsetSmoothingBound := by
  refine fun s => ⟨tickStep s, exec_tick s, tickStep_offmeas s, ?_⟩
  rw [tickStep_offcur, tickStep_offmeas]
  exact offsetToward_dist s.offcur s.offmeas

/-! ### The leader over many TICKs (R147) -/

/-- With the ramp idle, `n` TICKs advance the leader by `n` times the increment and keep the increment. -/
theorem execAll_idle_ticks (n : Nat) (s : State) (hidle : s.rremain = 0) :
    ∃ t, execAll (List.replicate n .tick) s = .next t ∧
      t.lphase.toNat = (s.lphase.toNat + n * s.rcurrent.toNat) % 65536 ∧ t.rcurrent = s.rcurrent := by
  induction n generalizing s with
  | zero => exact ⟨s, rfl, by rw [Nat.zero_mul, Nat.add_zero, Nat.mod_eq_of_lt s.lphase.isLt], rfl⟩
  | succ n ih =>
    have hadvance := rampAdvance_idle s (.inl hidle)
    have hcurrent : (tickStep s).rcurrent = s.rcurrent := by rw [tickStep_rcurrent, hadvance]
    have hremain : (tickStep s).rremain = 0 := by rw [tickStep_rremain, hadvance]
    have hleader : (tickStep s).lphase.toNat = (s.lphase.toNat + s.rcurrent.toNat) % 65536 := by
      rw [tickStep_lphase, leaderPhase_toNat, hadvance]
    obtain ⟨t, ht, hphase, hinc⟩ := ih (tickStep s) hremain
    refine ⟨t, (execAll_cons _ _ _ _ (exec_tick s)).trans ht, ?_, hinc.trans hcurrent⟩
    rw [hphase, hleader, hcurrent, Nat.mod_add_mod, Nat.succ_mul, Nat.add_assoc, Nat.add_comm s.rcurrent.toNat]

/-- Settles O49: an advance by a multiple of 65536 is none. -/
theorem phaseWrapsToItsStart : Obligations.PhaseWrapsToItsStart := by
  intro n s hidle hturns
  obtain ⟨t, ht, hphase, hinc⟩ := execAll_idle_ticks n s hidle
  refine ⟨t, ht, BitVec.eq_of_toNat_eq ?_, hinc⟩
  rw [hphase, Nat.add_mod, Nat.mod_eq_zero_of_dvd hturns, Nat.add_zero, Nat.mod_mod, Nat.mod_eq_of_lt s.lphase.isLt]

end Sys2Proof.Machine

/-! SUPPORT. The wave folder: the thresholds of a fold amount (R160) and the command that writes them (R161), scaled
values that do not fold (R163), and the laws of the fold (R168). -/

namespace Sys2Proof.Machine

/-! ### The thresholds of a fold amount (R160) -/

/-- Below 894 neither bound of the positive threshold is reached. -/
theorem foldWrap_of_lt {v : Nat} (h : v < 894) : foldWrap v = 64 + v / 2 := by
  rw [foldWrap, min_eq_left (by omega : v ≤ 1023), min_eq_left (by omega)]

theorem foldWrap_of_ge {v : Nat} (h : 894 ≤ v) : foldWrap v = 511 :=
  min_eq_right (by omega)

theorem foldNegwrap_of_ge {v : Nat} (h : 894 ≤ v) : foldNegwrap v = 255 := by
  rw [foldNegwrap, foldWrap_of_ge h]
  rfl

theorem foldWrap_eq_min_iff (v : Nat) : foldWrap v = 64 ↔ v ≤ 1 := by
  rcases Nat.lt_or_ge v 894 with h | h
  · rw [foldWrap_of_lt h]
    omega
  · rw [foldWrap_of_ge h]
    omega

theorem foldWrap_eq_max_iff (v : Nat) : foldWrap v = 511 ↔ 894 ≤ v := by
  rcases Nat.lt_or_ge v 894 with h | h
  · rw [foldWrap_of_lt h]
    omega
  · exact iff_of_true (foldWrap_of_ge h) h

/-- The negative threshold leaves 64 where half the positive one does. -/
theorem foldNegwrap_eq_min_iff (v : Nat) : foldNegwrap v = 64 ↔ v ≤ 131 := by
  rcases Nat.lt_or_ge v 894 with h | h
  · rw [foldNegwrap, foldWrap_of_lt h]
    omega
  · rw [foldNegwrap_of_ge h]
    omega

/-- Settles O30: below 894 the positive threshold is `64 + v / 2`, from there on both thresholds are constant. -/
theorem foldThresholdValues : Obligations.FoldThresholdValues := by
  refine ⟨fun v => ?range, foldWrap_eq_min_iff, ⟨rfl, rfl⟩, foldWrap_eq_max_iff, fun v => foldNegwrap_of_ge,
    foldNegwrap_eq_min_iff, ⟨rfl, rfl⟩, fun v hv => ?clamp⟩
  case range =>
    obtain ⟨hwrapLow, hwrapHigh⟩ := foldWrap_range v
    exact ⟨hwrapLow, hwrapHigh, foldNegwrap_range v⟩
  case clamp =>
    have hv' : 894 ≤ v := by omega
    exact ⟨(foldWrap_of_ge hv').trans (foldWrap_of_ge (by decide)).symm,
      (foldNegwrap_of_ge hv').trans (foldNegwrap_of_ge (by decide)).symm⟩

/-! ### WRFOLD (R161) -/

/-- The positive threshold fits its register. -/
theorem ofNat_foldWrap_toNat (v : Nat) : (BitVec.ofNat 16 (foldWrap v)).toNat = foldWrap v := by
  have hrange := foldWrap_range v
  exact Nat.mod_eq_of_lt (by omega)

/-- The negative threshold fits its register. -/
theorem ofNat_foldNegwrap_toNat (v : Nat) : (BitVec.ofNat 16 (foldNegwrap v)).toNat = foldNegwrap v := by
  have hrange := foldNegwrap_range v
  exact Nat.mod_eq_of_lt (by omega)

/-- Settles O29: both registers hold the whole threshold of the amount. -/
theorem wrfoldSetsBothThresholds : Obligations.WrfoldSetsBothThresholds := by
  refine fun v s => ⟨_, _, exec_wrfold v s, ofNat_foldWrap_toNat v.toNat, ?negative⟩
  case negative => rw [ofNat_foldNegwrap_toNat, ofNat_foldWrap_toNat, foldNegwrap]

/-! ### Scaled values that do not fold (R163) -/

/-- Below the half-period nothing is reflected (R165). -/
theorem foldMagnitude_of_le {sc : Nat} (h : sc ≤ 127) : foldMagnitude sc = sc := by
  have hmod : sc % 256 = sc := Nat.mod_eq_of_lt (by omega)
  rw [foldMagnitude, hmod, if_pos (by omega)]

/-- Within the first period the polarity is kept (R164). -/
theorem foldPolarity_of_lt {sc : Nat} (h : sc < 256) (neg : Bool) : foldPolarity sc neg = neg := by
  rw [foldPolarity, Nat.div_eq_of_lt h]
  exact Bool.xor_false neg

theorem foldScaled_toNat_of_le {sc : Nat} (h : sc ≤ 127) (neg : Bool) :
    (foldScaled sc neg).toNat = if neg then 128 - sc else 128 + sc := by
  rw [foldScaled_toNat, foldMagnitude_of_le h, foldPolarity_of_lt (by omega)]

theorem foldScale_zero (t : Half) : foldScale 0 t = 0 := by
  rw [foldScale, Nat.zero_mul, Nat.zero_shiftRight]

/-- A threshold of 64 is unity gain (R163). -/
theorem foldScale_unity (m : Nat) : foldScale m 64 = m := by
  have hunity : (64 : Half).toNat = 64 := rfl
  rw [foldScale, hunity, Nat.shiftRight_eq_div_pow]
  exact Nat.mul_div_cancel m (by decide)

/-- Equal thresholds make the polarity select nothing (R162). -/
theorem fold_same_threshold (t : Half) (x : SignMag) : fold t t x = foldScaled (foldScale x.mag.toNat t) x.neg := by
  rw [fold_eq, foldThreshold, ite_self]

/-- At unity gain the sample is the signed input value about the midpoint. -/
theorem fold_unity_toNat (x : SignMag) : ((fold 64 64 x).toNat : Int) = 128 + x.value := by
  have hmag : x.mag.toNat ≤ 127 := Nat.le_of_lt_succ x.mag.isLt
  rw [fold_same_threshold, foldScale_unity, foldScaled_toNat_of_le hmag, SignMag.value]
  split <;> omega

/-- Settles O42: the sample of a TICK is the fold of the ring of its two phases, here at unity gain. -/
theorem minimumFoldFoldsNothing : Obligations.MinimumFoldFoldsNothing := by
  refine fun s hwrap hnegwrap => ⟨tickStep s, exec_tick s, ?_⟩
  rw [tickStep_out, hwrap, hnegwrap]
  exact fold_unity_toNat _

/-! ### The laws of the fold (R168) -/

theorem fold_zero (w n : Half) (neg : Bool) : fold w n ⟨0, neg⟩ = 128 := by
  have hmag : (0 : BitVec 7).toNat = 0 := rfl
  rw [fold_eq, hmag, foldScale_zero]
  cases neg <;> rfl

theorem foldPolarity_not (sc : Nat) (neg : Bool) : foldPolarity sc (!neg) = !foldPolarity sc neg :=
  Bool.not_xor neg _

/-- The two polarities of a scaled value lie symmetrically about the midpoint (R168(d)). -/
theorem foldScaled_add_foldScaled_not (sc : Nat) (neg : Bool) :
    (foldScaled sc (!neg)).toNat + (foldScaled sc neg).toNat = 256 := by
  have hmag := foldMagnitude_le sc
  rw [foldScaled_toNat, foldScaled_toNat, foldPolarity_not]
  cases foldPolarity sc neg with
  | false =>
    rw [Bool.not_false, if_pos rfl, if_neg Bool.false_ne_true]
    omega
  | true =>
    rw [Bool.not_true, if_neg Bool.false_ne_true, if_pos rfl]
    omega

/-- A step of the scaled value moves the magnitude by at most 1, at the reflection and at a period boundary too. -/
theorem foldMagnitude_succ (sc : Nat) :
    foldMagnitude (sc + 1) ≤ foldMagnitude sc + 1 ∧ foldMagnitude sc ≤ foldMagnitude (sc + 1) + 1 := by
  unfold foldMagnitude
  split <;> split <;> omega

/-- Only a step over a period boundary can change the polarity. -/
theorem foldPolarity_succ {sc : Nat} (h : sc % 256 ≠ 255) (neg : Bool) :
    foldPolarity (sc + 1) neg = foldPolarity sc neg := by
  have hperiod : (sc + 1) / 256 = sc / 256 := by omega
  rw [foldPolarity, foldPolarity, hperiod]

/-- Both sides of a period boundary have magnitude 0, so the polarity change there is not heard. -/
theorem foldMagnitude_at_boundary {sc : Nat} (h : sc % 256 = 255) :
    foldMagnitude sc = 0 ∧ foldMagnitude (sc + 1) = 0 := by
  have hnext : (sc + 1) % 256 = 0 := by omega
  rw [foldMagnitude, foldMagnitude, h, hnext]
  decide

theorem foldScaled_toNat_of_magnitude_zero {sc : Nat} (h : foldMagnitude sc = 0) (neg : Bool) :
    (foldScaled sc neg).toNat = 128 := by
  rw [foldScaled_toNat, h]
  exact ite_self 128

/-- The fold is continuous in the scaled value (R168(e)). -/
theorem foldScaled_succ (sc : Nat) (neg : Bool) :
    (foldScaled (sc + 1) neg).toNat ≤ (foldScaled sc neg).toNat + 1 ∧
      (foldScaled sc neg).toNat ≤ (foldScaled (sc + 1) neg).toNat + 1 := by
  by_cases hboundary : sc % 256 = 255
  · obtain ⟨hbefore, hafter⟩ := foldMagnitude_at_boundary hboundary
    rw [foldScaled_toNat_of_magnitude_zero hbefore, foldScaled_toNat_of_magnitude_zero hafter]
    decide
  · obtain ⟨hrise, hfall⟩ := foldMagnitude_succ sc
    rw [foldScaled_toNat, foldScaled_toNat, foldPolarity_succ hboundary]
    split <;> omega

/-- Settles O41: a folded magnitude is below 128 and so folds no further; the other laws are those above. -/
theorem waveFolderLaws : Obligations.WaveFolderLaws := by
  refine ⟨fold_zero, one_le_fold, fun sc neg hsc => ⟨foldMagnitude_of_le hsc, foldPolarity_of_lt (by omega) neg⟩,
    fun sc => foldMagnitude_of_le (foldMagnitude_le sc), fun t m => ?symmetry, foldScaled_succ⟩
  case symmetry =>
    rw [fold_same_threshold, fold_same_threshold]
    exact foldScaled_add_foldScaled_not (foldScale m.toNat t) false

end Sys2Proof.Machine

/-! SUPPORT. The audio tick and the control commands: the step a strobe starts (R180, R204), NOP (R184) and WROFF
(R182), the sample of a TICK in naturals (R180), and unison (R143, R180). -/

namespace Sys2Proof.Machine

/-! ### The strobe (R180, R204) -/

/-- Settles O14: a strobe with no command beside it is the next event, and nothing of its cycle is left. -/
theorem stepRunsTheStrobedTick : Obligations.StepRunsTheStrobedTick := by
  intro s c rest hstim hrst hvalid htick
  have hnext : nextEvent s.stimulus = (.run .tick, rest) := by rw [hstim, nextEvent_tick c rest hrst hvalid htick]
  calc step s
      = exec .tick (takeInput s) := step_of_run s .tick (congrArg Prod.fst hnext)
    _ = exec .tick { s with stimulus := rest } := by rw [takeInput, hnext]

/-! ### NOP and WROFF (R182, R184) -/

/-- Of the words with `op` 0 only the word 0 is no ignored word (R81, R184). -/
theorem decodeCommand_of_op0_of_ne_zero (w : Word) (hop : w.toNat < 0x10000000) (hw : w ≠ 0) :
    decodeCommand w = .ignored .reservedBits := by
  have hfield : opField w = 0 := by
    apply BitVec.eq_of_toNat_eq
    rw [opField_toNat, Nat.div_eq_of_lt hop]
    rfl
  have hmask : w &&& 0xFFFFFFFF = w := BitVec.and_allOnes
  rw [decodeCommand_op0 w hfield, hmask, if_neg hw]

/-- Settles O23: the word 0 is the word of NOP, and NOP answers the state it is given. -/
theorem nopChangesNothing : Obligations.NopChangesNothing :=
  ⟨decodeCommand_encode .nop nofun, exec_nop, decodeCommand_of_op0_of_ne_zero⟩

/-- Settles O28: WROFF is the write of its operand into `OFFMEAS`. -/
theorem wroffWritesTheMeasuredOffset : Obligations.WroffWritesTheMeasuredOffset := exec_wroff

/-! ### The sample of a TICK in naturals (R144, R146, R162 to R167, R180) -/

/-- The polarity of the sine as the bit of R144. -/
theorem psin_neg_toNat (p : Half) : (psin p).neg.toNat = p.toNat / 32768 := by
  have hp := p.isLt
  have hneg := psin_neg_iff_le p
  rcases Nat.lt_or_ge p.toNat 32768 with hpositive | hnegative
  · rw [Bool.eq_false_of_not_eq_true (mt hneg.1 hpositive.not_ge), Nat.div_eq_of_lt hpositive]
    rfl
  · rw [hneg.2 hnegative, Bool.toNat_true]
    omega

/-- The exclusive-or of two polarities is the sum of their bits modulo 2 (R146). -/
theorem ring_neg_toNat (a b : SignMag) : (ring a b).neg.toNat = (a.neg.toNat + b.neg.toNat) % 2 := by
  rw [ring_neg]
  cases a.neg <;> cases b.neg <;> rfl

theorem foldThreshold_toNat (w n : Half) (neg : Bool) :
    (foldThreshold w n neg).toNat = if neg.toNat = 0 then w.toNat else n.toNat := by
  cases neg <;> rfl

theorem foldScale_eq_div (m : Nat) (t : Half) : foldScale m t = m * t.toNat / 64 := by
  rw [foldScale, Nat.shiftRight_eq_div_pow]

/-- A whole period adds 1 to the polarity bit modulo 2 (R164). -/
theorem foldPolarity_eq_false_iff (sc : Nat) (neg : Bool) :
    foldPolarity sc neg = false ↔ (neg.toNat + sc / 256) % 2 = 0 := by
  cases neg with
  | false => simp [foldPolarity]
  | true =>
    simp only [foldPolarity, Bool.true_bne, Bool.not_eq_false', beq_iff_eq, Bool.toNat_true]
    omega

theorem foldScaled_toNat_of_parity (sc : Nat) (neg : Bool) :
    (foldScaled sc neg).toNat =
      if (neg.toNat + sc / 256) % 2 = 0 then 128 + foldMagnitude sc else 128 - foldMagnitude sc := by
  have hparity := foldPolarity_eq_false_iff sc neg
  rw [foldScaled_toNat]
  cases hpol : foldPolarity sc neg with
  | false => rw [if_pos (hparity.1 hpol), if_neg Bool.false_ne_true]
  | true => rw [if_neg fun heven => Bool.false_ne_true ((hparity.2 heven).symm.trans hpol), if_pos rfl]

/-- A TICK writes six registers and nothing else (R180). -/
theorem tickStep_frame (s : State) :
    tickStep s =
      { s with
        rcurrent := (tickStep s).rcurrent
        rremain := (tickStep s).rremain
        lphase := (tickStep s).lphase
        offcur := (tickStep s).offcur
        fphase := (tickStep s).fphase
        out := (tickStep s).out } := by
  rw [tickStep_rcurrent, tickStep_rremain, tickStep_lphase, tickStep_offcur]
  exact tickStep_eq s

/-- Settles O37: each stage of the sample is its formula in naturals, the polarities taken as bits. -/
theorem tickProducesTheSample : Obligations.TickProducesTheSample := by
  refine fun s => ⟨tickStep s, exec_tick s, tickStep_frame s, ?sample⟩
  case sample =>
    intro mag pol m sc f
    have hpol : (ring (psin (tickStep s).lphase) (psin (tickStep s).fphase)).neg.toNat = pol := by
      rw [ring_neg_toNat, psin_neg_toNat, psin_neg_toNat]
    have hm : (ring (psin (tickStep s).lphase) (psin (tickStep s).fphase)).mag.toNat = m := by
      rw [ring_mag_toNat, psin_mag_toNat, psin_mag_toNat]
      rfl
    have hsc : foldScale m (foldThreshold s.wrap s.negwrap
        (ring (psin (tickStep s).lphase) (psin (tickStep s).fphase)).neg) = sc := by
      rw [foldScale_eq_div, foldThreshold_toNat, hpol]
    rw [tickStep_out, fold_eq, hm, hsc, foldScaled_toNat_of_parity, hpol]
    rfl

/-! ### Unison (R143, R180) -/

/-- In unison the follower has no offset to smooth and so the leader's phase (R141, R143). -/
theorem tickStep_fphase_of_unison (s : State) (hcur : s.offcur = 0) (hmeas : s.offmeas = 0) :
    (tickStep s).fphase = (tickStep s).lphase := by
  obtain ⟨-, hunison, -⟩ := followerRatioLaws
  rw [tickStep_fphase, tickStep_offcur, hcur, hmeas]
  exact hunison _

/-- The sample of a TICK in unison is a function of the leader's phase and the positive threshold alone, since the ring
of two equal polarities is positive (R146, R162). -/
theorem tickStep_out_of_unison (s : State) (hcur : s.offcur = 0) (hmeas : s.offmeas = 0) :
    (tickStep s).out =
      foldScaled (foldScale (ring (psin (tickStep s).lphase) (psin (tickStep s).lphase)).mag.toNat s.wrap) false := by
  have hpositive : (ring (psin (tickStep s).lphase) (psin (tickStep s).lphase)).neg = false := Bool.xor_self _
  rw [tickStep_out, tickStep_fphase_of_unison s hcur hmeas, fold_eq, hpositive]
  rfl

/-- No ring value reaches the end of the first period up to `WRAP` 130 (R146, R163). -/
theorem foldScale_ring_lt (a b : SignMag) {t : Half} (ht : t.toNat ≤ 130) : foldScale (ring a b).mag.toNat t < 256 := by
  have hproduct : (ring a b).mag.toNat * t.toNat ≤ 126 * 130 := Nat.mul_le_mul (ring_mag_le a b) ht
  rw [foldScale_eq_div]
  omega

/-- Within the first period a positive value stays at or above the midpoint (R164 to R166). -/
theorem midpoint_le_foldScaled {sc : Nat} (h : sc < 256) : 128 ≤ (foldScaled sc false).toNat := by
  rw [foldScaled_toNat, foldPolarity_of_lt h, if_neg Bool.false_ne_true]
  exact Nat.le_add_right 128 _

/-- The state WRFOLD 1023 and SETT.IMM 4992 leave after reset: in unison, and with the next phase one where the ring
value 33 scales to 263, past the first period. -/
def foldedUnison (p : Params) : State :=
  { State.resetWith p with wrap := 511, negwrap := 255, rtarget := 4992, rcurrent := 4992, rstart := 4992 }

/-- The two commands answer that state from reset. -/
theorem execAll_resetWith_foldedUnison (p : Params) :
    execAll [.wrfold 1023, .settImm 4992] (State.resetWith p) = .next (foldedUnison p) := rfl

/-- Every list of operations keeps the invariant. -/
theorem execAll_inv (is : List Instr) {s t : State} (h : s.Inv) (hrun : execAll is s = .next t) : t.Inv := by
  induction is generalizing s with
  | nil =>
    cases hrun
    exact h
  | cons i is ih =>
    obtain ⟨u, hexec⟩ := exec_completes i s
    exact ih (exec_inv i s u h hexec) ((execAll_cons i is s u hexec).symm.trans hrun)

theorem foldedUnison_inv {p : Params} (h : p.Legal) : (foldedUnison p).Inv :=
  execAll_inv _ (resetWith_inv p h) (execAll_resetWith_foldedUnison p)

theorem foldedUnison_tick_lphase (p : Params) : (tickStep (foldedUnison p)).lphase = 4992 := by
  rw [tickStep_lphase, rampAdvance_idle _ (.inl rfl)]
  rfl

/-- The scaled value 263 lies 7 into the second period, so the sample is 7 below the midpoint (95 section 2.5). -/
theorem foldedUnison_tick_out (p : Params) : (tickStep (foldedUnison p)).out = 121 := by
  have hwrap : (foldedUnison p).wrap = 511 := rfl
  rw [tickStep_out_of_unison _ rfl rfl, foldedUnison_tick_lphase, hwrap]
  decide

/-- Settles O43: up to `WRAP` 130 no scaled value leaves the first period; at 511 one does. -/
theorem unisonAndTheMidpoint : Obligations.UnisonAndTheMidpoint := by
  refine ⟨fun s hcur hmeas hwrap =>
      ⟨tickStep s, exec_tick s, tickStep_fphase_of_unison s hcur hmeas, ?above⟩,
    foldedUnison Config.params.val, tickStep (foldedUnison Config.params.val),
    foldedUnison_inv Config.params.property, rfl, rfl, rfl, rfl, exec_tick _,
    tickStep_fphase_of_unison _ rfl rfl, ?below⟩
  case above =>
    rw [tickStep_out_of_unison s hcur hmeas]
    exact midpoint_le_foldScaled (foldScale_ring_lt _ _ hwrap)
  case below =>
    rw [foldedUnison_tick_out]
    decide

end Sys2Proof.Machine

/-! SUPPORT. Exceptions and idle cycles: a command and a strobe of one cycle in their order (R205, R225), cycles with
neither (R210), and that there is no fault (R200). -/

namespace Sys2Proof.Machine

/-! ### A command and a strobe in one cycle (R205, R225) -/

theorem run_one (s : State) : Sys2Proof.core.run 1 s = step s := by
  obtain ⟨t, ht⟩ := step_completes s
  exact (run_succ_of_next 0 s t ht).trans ht.symm

/-- Settles O17: the command leaves the strobe of its cycle waiting and reads nothing of it, so the step after it is the
TICK on the state the command left. -/
theorem commandComesBeforeTheStrobe : Obligations.CommandComesBeforeTheStrobe := by
  intro s c rest i hstim hrst hvalid htick hdecode
  obtain ⟨t, hexec, hexec', hleft⟩ :=
    exec_stimulus i { s with stimulus := { c with cmdValid := false } :: rest } rest
  have hstep : step s = .next t := by
    rw [stepRunsTheDecodedCommand s c rest i hstim hrst hvalid hdecode, if_pos htick, hexec]
  have hrun : Sys2Proof.core.run 2 s = step t := (run_succ_of_next 1 s t hstep).trans (run_one t)
  refine hrun.trans ?_
  calc step t
      = exec .tick { t with stimulus := rest } :=
        stepRunsTheStrobedTick t { c with cmdValid := false } rest hleft hrst rfl htick
    _ = execAll [.tick] { t with stimulus := rest } := (execAll_singleton _ _).symm
    _ = execAll [i, .tick] { s with stimulus := rest } := (execAll_cons i [.tick] _ _ hexec').symm

/-! ### Cycles with no strobe and no command (R210) -/

theorem step_of_nextEvent_idle (s : State) (rest : List PortCycle) (h : nextEvent s.stimulus = (.idle, rest)) :
    step s = .next { s with stimulus := rest } := by
  rw [step_of_idle s (congrArg Prod.fst h), takeInput, h]

/-- Settles O21: with no input to come, as in a cycle with neither strobe nor command, the next event is idle. -/
theorem idleCycleChangesNothing : Obligations.IdleCycleChangesNothing := by
  refine ⟨fun s hstim => ?empty, fun s c rest hstim hrst hvalid htick => ?cycle⟩
  case empty =>
    have hnext : nextEvent s.stimulus = (.idle, s.stimulus) := by rw [hstim, nextEvent_nil]
    exact step_of_nextEvent_idle s s.stimulus hnext
  case cycle =>
    have hnext : nextEvent s.stimulus = (.idle, rest) := by rw [hstim, nextEvent_idle c rest hrst hvalid htick]
    exact step_of_nextEvent_idle s rest hnext

/-! ### No fault (R200) -/

/-- Settles O22: the type of faults has no constructor, and operations and steps answer a next state. -/
theorem everyOperationCompletes : Obligations.EveryOperationCompletes :=
  ⟨⟨nofun⟩, exec_completes, step_completes⟩

end Sys2Proof.Machine

/-! SUPPORT. Reset and hazards: cycles with `rst` high (R220), a strobe held over many cycles (R226), that `OUT` is
written by a TICK alone (R227(a)), and the offset's way to its measured value (R227(b)). -/

namespace Sys2Proof.Machine

/-! ### Reset cycles (R220) -/

/-- A reset cycle leaves the reset values, whatever else stands on the ports in it. -/
theorem step_of_reset_cycle (s : State) (c : PortCycle) (rest : List PortCycle) (hstim : s.stimulus = c :: rest)
    (hrst : c.rst = true) : step s = .next { State.resetWith s.params with stimulus := rest } := by
  have hnext : nextEvent s.stimulus = (.reset, rest) := by rw [hstim, nextEvent_reset c rest hrst]
  calc step s
      = .next (resetRegisters (takeInput s)) := step_of_reset s (congrArg Prod.fst hnext)
    _ = .next { State.resetWith s.params with stimulus := rest } := by rw [takeInput, hnext, resetRegisters]

/-- The reset cycles after the first find the reset values and leave them. -/
theorem run_reset_cycles (c : PortCycle) (cs rest : List PortCycle) (s : State) (hrst : ∀ d ∈ c :: cs, d.rst = true)
    (hstim : s.stimulus = c :: cs ++ rest) :
    Sys2Proof.core.run (c :: cs).length s = .next { State.resetWith s.params with stimulus := rest } := by
  induction cs generalizing c s with
  | nil =>
    obtain ⟨hc, -⟩ := List.forall_mem_cons.mp hrst
    exact (run_one s).trans (step_of_reset_cycle s c rest hstim hc)
  | cons d ds ih =>
    obtain ⟨hc, hrst⟩ := List.forall_mem_cons.mp hrst
    exact (run_succ_of_next _ s _ (step_of_reset_cycle s c _ hstim hc)).trans (ih d _ hrst rfl)

/-- Settles O19: the reset cycles leave the reset values, and the first cycle after them is a cycle like any other. -/
theorem resetCyclesRestoreEveryRegister : Obligations.ResetCyclesRestoreEveryRegister := by
  intro cs rest s hne hrst hstim
  obtain ⟨c, cs, rfl⟩ := List.exists_cons_of_ne_nil hne
  exact ⟨_, run_reset_cycles c cs rest s hrst hstim, rfl, rfl, rfl,
    stepRunsTheDecodedCommand { State.resetWith s.params with stimulus := rest },
    stepRunsTheStrobedTick { State.resetWith s.params with stimulus := rest }⟩

/-! ### A held strobe (R226) -/

/-- Settles O18, by induction on the cycles: the first of them starts one TICK, which reads nothing of the others. -/
theorem heldStrobeStartsOneTickPerCycle : Obligations.HeldStrobeStartsOneTickPerCycle := by
  intro n
  induction n with
  | zero =>
    rintro s c _ - - - rfl
    rfl
  | succ n ih =>
    intro s c rest hrst hvalid htick hstim
    obtain ⟨t, hexec, hexec', hwaiting⟩ :=
      exec_stimulus .tick { s with stimulus := List.replicate n c ++ rest } rest
    have hstep : step s = .next t := (stepRunsTheStrobedTick s c _ hstim hrst hvalid htick).trans hexec
    have hrun : Sys2Proof.core.run (n + 1) s = execAll (List.replicate n .tick) { t with stimulus := rest } :=
      (run_succ_of_next n s t hstep).trans (ih t c rest hrst hvalid htick hwaiting)
    exact hrun.trans (execAll_cons .tick (List.replicate n .tick) { s with stimulus := rest } _ hexec').symm

/-! ### The writer of `OUT` (R227(a)) -/

/-- Settles O56: a step with no operation only takes its input, and a command keeps the registers of the tick agent. -/
theorem outChangesOnlyAtATick : Obligations.OutChangesOnlyAtATick := by
  intro s t hstep htick hreset
  rcases step_cases s t hstep with ⟨-, rfl⟩ | ⟨hevent, -⟩ | ⟨i, hevent, hexec⟩
  · exact takeInput_out s
  · exact absurd hevent hreset
  · have hi : i ≠ .tick := fun h => htick (h ▸ hevent)
    obtain ⟨-, -, -, hout⟩ := command_keeps_tick_registers hexec hi
    exact hout

/-! ### The way of the offset (R141, R227(b)) -/

/-- An offset after `k` smoothing steps toward a measured value: one unit each, and none past it. -/
def offsetAfter (cur meas k : Nat) : Nat := if cur ≤ meas then min (cur + k) meas else max (cur - k) meas

theorem offsetAfter_of_le {cur meas : Nat} (h : cur ≤ meas) (k : Nat) :
    offsetAfter cur meas k = min (cur + k) meas :=
  if_pos h

theorem offsetAfter_of_ge {cur meas : Nat} (h : meas ≤ cur) (k : Nat) :
    offsetAfter cur meas k = max (cur - k) meas := by
  unfold offsetAfter
  split <;> omega

theorem offsetAfter_zero (cur meas : Nat) : offsetAfter cur meas 0 = cur := by
  rcases le_total cur meas with h | h
  · rw [offsetAfter_of_le h, Nat.add_zero, min_eq_left h]
  · rw [offsetAfter_of_ge h, Nat.sub_zero, max_eq_left h]

/-- The steps stay on their side of the measured value, so they go on where the steps before them have led. -/
theorem offsetAfter_offsetAfter (cur meas j k : Nat) :
    offsetAfter (offsetAfter cur meas j) meas k = offsetAfter cur meas (j + k) := by
  rcases le_total cur meas with h | h
  · rw [offsetAfter_of_le h, offsetAfter_of_le h, offsetAfter_of_le (min_le_right _ _)]
    omega
  · rw [offsetAfter_of_ge h, offsetAfter_of_ge h, offsetAfter_of_ge (le_max_right _ _)]
    omega

/-- One smoothing step (R141). -/
theorem offsetToward_toNat_eq_offsetAfter (a b : Half) : (offsetToward a b).toNat = offsetAfter a.toNat b.toNat 1 := by
  rw [offsetToward_toNat, offsetAfter]
  split_ifs <;> omega

/-- An operation moves the offset when it is a TICK, and leaves it otherwise. -/
theorem exec_offcur_toNat {i : Instr} {s t : State} (h : exec i s = .next t) :
    t.offcur.toNat = offsetAfter s.offcur.toNat s.offmeas.toNat ([i].count .tick) := by
  by_cases htick : i = .tick
  · subst htick
    cases h
    rw [tickStep_offcur, offsetToward_toNat_eq_offsetAfter, List.count_singleton_self]
  · obtain ⟨-, -, hoffcur, -⟩ := command_keeps_tick_registers h htick
    rw [hoffcur, List.count_eq_zero.mpr (by simpa using Ne.symm htick), offsetAfter_zero]

/-- Settles O51, by induction on the operations: `OFFMEAS` stays, so the steps of the offset add up. -/
theorem offsetReachesTheMeasuredValue : Obligations.OffsetReachesTheMeasuredValue := by
  intro is
  induction is with
  | nil => exact fun s _ => ⟨s, rfl, rfl, (offsetAfter_zero s.offcur.toNat s.offmeas.toNat).symm⟩
  | cons i is ih =>
    intro s his
    obtain ⟨hi, his⟩ := List.forall_mem_cons.mp his
    obtain ⟨u, hu⟩ := exec_completes i s
    have hmeas : u.offmeas = s.offmeas := exec_keeps_offmeas hu hi
    obtain ⟨t, ht, hmeas', hcur⟩ := ih u his
    have hcount : (i :: is).count .tick = [i].count .tick + is.count .tick := List.count_append (l₁ := [i])
    refine ⟨t, (execAll_cons i is s u hu).trans ht, hmeas'.trans hmeas, ?_⟩
    calc t.offcur.toNat
        = offsetAfter u.offcur.toNat u.offmeas.toNat (is.count .tick) := hcur
      _ = offsetAfter s.offcur.toNat s.offmeas.toNat ((i :: is).count .tick) := by
        rw [exec_offcur_toNat hu, hmeas, offsetAfter_offsetAfter, hcount]

end Sys2Proof.Machine
